-- ==== Sys2Proof/Word.lean ====
section
/-!
DEFINITION. The word types of the block (spec/00_scope.md R9, spec/30_encoding.md R110).
All values are unsigned; widths are fixed.
-/
namespace Sys2Proof

/-- A byte of plane memory or an 8-bit register. -/
abbrev Byte := BitVec 8

/-- A 16-bit word of a plane or of a register page. -/
abbrev Half := BitVec 16

/-- A 32-bit command word (R110). -/
abbrev Command := BitVec 32

/-- The 24-bit operand of a command and the registers that hold it whole (R110, R40 to R47). -/
abbrev Operand := BitVec 24

/-- The 21-bit address operand of format A (R111). -/
abbrev Addr21 := BitVec 21

/-- The 22-bit composite of a split address register (R37). -/
abbrev Addr22 := BitVec 22

/-- A pixel is a 32-bit CLUT entry, copied unchanged (R298). -/
abbrev Pixel := BitVec 32

end Sys2Proof
end

