-- ==== Sys2Proof/Syntax.lean ====
section
/-!
DEFINITION. The command language as data: channels, walker modes, the register names of REGISTER SET, and the
commands (spec/30_encoding.md R114, spec/opcode_table.json). Operands are the fields of R111 and nothing else;
bits a format ignores are no part of a command.
-/
namespace Sys2Proof

/-- R10: channel 0 is "A" and owns plane A; channel 1 is "B" and owns plane B. -/
inductive Channel where
  | a
  | b
deriving DecidableEq, Repr, Inhabited

/-- R360: the mode a walk was invoked in, fixed for the whole invocation. -/
inductive Mode where
  | ica
  | dca
deriving DecidableEq, Repr, Inhabited

/-- The registers REGISTER SET can name (R251). -/
inductive RegName where
  | clut (slot : BitVec 6)
  | icm
  | tcr
  | por
  | clutBank
  | tca
  | tcb
  | mca
  | mcb
  | dyuva
  | dyuvb
  | curpos
  | curcnt
  | curpat
  | rc (n : BitVec 3)
  | backdrop
  | mha
  | mhb
  | wfa
  | wfb
deriving DecidableEq, Repr

/-- The commands, one constructor for each mnemonic of the opcode table (R114). -/
inductive Instr where
  /-- STOP, R218. -/
  | stop
  /-- NOP, R220. -/
  | nop
  /-- RELOAD_DCP, ICA mode, R222. -/
  | reloadDcp (addr : Addr21)
  /-- RELOAD_DCP in DCA mode, inert, R223. -/
  | reloadDcpInert
  /-- RELOAD_DCP_STOP, R224. -/
  | reloadDcpStop (addr : Addr21)
  /-- RELOAD_ICA, ICA mode, R225. -/
  | reloadIca (addr : Addr21)
  /-- RELOAD_VSR, DCA mode, R226. -/
  | reloadVsr (addr : Addr21)
  /-- RELOAD_VSR_STOP, R228. -/
  | reloadVsrStop (addr : Addr21)
  /-- INTERRUPT, R240. -/
  | interrupt
  /-- An opcode that reaches the register-set dispatch and matches no register, R280. -/
  | regsetUnassigned (reg : Byte)
  /-- RELOAD_DISPLAY_PARAMETERS, R245. -/
  | reloadDisplayParameters (cm : Bool) (dp : BitVec 4)
  /-- SET_CLUT, R252. -/
  | setClut (slot : BitVec 6) (value : Operand)
  /-- SET_ICM, R253. -/
  | setIcm (value : Operand)
  /-- SET_TCR, R254. -/
  | setTcr (value : Operand)
  /-- SET_POR, R255. -/
  | setPor (value : Operand)
  /-- SET_CLUT_BANK, R256. -/
  | setClutBank (bank : BitVec 2)
  /-- SET_TCA, R257. -/
  | setTca (value : Operand)
  /-- SET_TCB, R258. -/
  | setTcb (value : Operand)
  /-- SET_MCA, R259. -/
  | setMca (value : Operand)
  /-- SET_MCB, R260. -/
  | setMcb (value : Operand)
  /-- SET_DYUVA, R261. -/
  | setDyuva (value : Operand)
  /-- SET_DYUVB, R262. -/
  | setDyuvb (value : Operand)
  /-- SET_CURPOS, R263. -/
  | setCurpos (value : Operand)
  /-- SET_CURCNT, R264. -/
  | setCurcnt (value : Operand)
  /-- SET_CURPAT, R265. -/
  | setCurpat (index : BitVec 4) (word : Half)
  /-- SET_RC, R266. -/
  | setRc (n : BitVec 3) (value : Operand)
  /-- SET_BACKDROP, R267. -/
  | setBackdrop (value : Operand)
  /-- SET_MHA, R268. -/
  | setMha (value : Operand)
  /-- SET_MHB, R269. -/
  | setMhb (value : Operand)
  /-- SET_WFA, R270. -/
  | setWfa (value : Operand)
  /-- SET_WFB, R271. -/
  | setWfb (value : Operand)
deriving DecidableEq, Repr

end Sys2Proof
end

