-- ==== Sys2Proof/Config.lean ====
section
/-!
DEFINITION. What the spec leaves to a parameter or leaves open (spec/00_scope.md R8, R13).
Parameters with a default are fields of `Config`, which State carries, so that a claim about every state quantifies over
them. Values the spec calls `any` are opaque constants: nothing can be proved of what they are.
-/
namespace Sys2Proof

/-! ## Layout of the register pages, as data (R30, R50) -/

/-- The registers of the MCD212 page that one word slot can reach (R30). -/
inductive SlotReg where
  | status
  | dcr
  | vsr
  | ddr
  | dcp
deriving DecidableEq, Repr

/-- The 8-bit registers of the peripheral page (R50 to R58). `dmaMemoryHigh` and `dmaDeviceHigh` are bits 23:16 of the
24-bit address counters. -/
inductive ByteReg where
  | lir
  | i2cData
  | i2cAddress
  | i2cStatus
  | i2cControl
  | i2cClock
  | uartMode
  | uartStatus
  | uartClockSelect
  | uartCommand
  | uartThr
  | uartRhr
  | tsr
  | tcr
  | picr1
  | picr2
  | dmaStatus (j : Fin 2)
  | dmaError (j : Fin 2)
  | dmaDeviceControl (j : Fin 2)
  | dmaOperationControl (j : Fin 2)
  | dmaSequenceControl (j : Fin 2)
  | dmaChannelControl (j : Fin 2)
  | dmaMemoryHigh (j : Fin 2)
  | dmaDeviceHigh (j : Fin 2)
  | mmuSegmentNumber (i : Fin 8)
deriving DecidableEq, Repr

/-- The 16-bit registers of the peripheral page (R50 to R58). `dmaMemoryLow` and `dmaDeviceLow` are bits 15:0 of the
24-bit address counters. -/
inductive WordReg where
  | reload
  | t0
  | t1
  | t2
  | dmaTransferCounter (j : Fin 2)
  | dmaMemoryLow (j : Fin 2)
  | dmaDeviceLow (j : Fin 2)
  | mmuAttr (i : Fin 8)
  | mmuLength (i : Fin 8)
  | mmuBase (i : Fin 8)
deriving DecidableEq, Repr

/-- What one 16-bit word of the peripheral page holds: up to two 8-bit registers, or one 16-bit register (R141). -/
inductive PeriphWord where
  | bytes (high low : Option ByteReg)
  | word (reg : WordReg)
deriving DecidableEq, Repr

/-! ## The configuration -/

/-- Places of the fields inside DCR, DDR and the status register, the part of `MCD212_LAYOUT` that 92 D6, D7, D8 and D11
fix only by default (93 U14). A flag is the number of its bit, a field the number of its lowest bit; the bounds keep every
field, at its own width, inside its register. -/
structure DisplayBits where
  /-- DCR: DE, display-enable (R32). -/
  de : Fin 16
  /-- DCR: CF, crystal-frequency, storage (R32). -/
  cf : Fin 16
  /-- DCR: FD, frame-duration, storage (R32). -/
  fd : Fin 16
  /-- DCR: SM, scan-mode, storage (R32). -/
  sm : Fin 16
  /-- DCR: CM, colour mode (R32). -/
  cm : Fin 16
  /-- DCR: ICA-enable (R32). -/
  ica : Fin 16
  /-- DCR: DCA-enable (R32). -/
  dca : Fin 16
  /-- DCR: the 6-bit high field of VSR (R32, R37). -/
  vsrHigh : Fin 11
  /-- DDR: DP, the 4-bit display-parameter nibble (R34). -/
  dp : Fin 13
  /-- DDR: FT, the 2-bit file type (R34). -/
  ft : Fin 15
  /-- DDR: the 6-bit high field of DCP (R34, R37). -/
  dcpHigh : Fin 11
  /-- Status of channel 0: DA, display active (R31). -/
  da : Fin 8
deriving DecidableEq, Repr

/-- Bit `i` lies in the field of `n` bits from `lo` on. -/
def inField (lo n i : Nat) : Bool := decide (lo ≤ i) && decide (i < lo + n)

/-- The flags of DCR, in the order R32 lists them. -/
def DisplayBits.dcrFlags (l : DisplayBits) : List Nat :=
  [l.de.val, l.cf.val, l.fd.val, l.sm.val, l.cm.val, l.ica.val, l.dca.val]

/-- No two fields of DCR share a bit, and neither the parameter nibble nor the file type shares one with DCP's high field.
(The file type lies inside the nibble, R34.) -/
def DisplayBits.disjoint (l : DisplayBits) : Bool :=
  decide l.dcrFlags.Nodup && l.dcrFlags.all (fun i => !inField l.vsrHigh.val 6 i)
  && [0, 1, 2, 3].all (fun k => !inField l.dcpHigh.val 6 (l.dp.val + k))
  && [0, 1].all (fun k => !inField l.dcpHigh.val 6 (l.ft.val + k))

/-- One value of a composite function: the output line for a pair of channel lines. -/
structure CompositeRow where
  pxA : List Pixel
  pxB : List Pixel
  out : Vector Pixel 768
deriving DecidableEq, Repr

/-- R305: `COMPOSITE`, the function that combines the two channel lines. The default shows channel A. Every other function is
the table of its values: there are finitely many pairs of lines of 768 pixels. A pair no row lists gives channel A. -/
inductive Composite where
  | channelA
  | table (rows : List CompositeRow)
deriving DecidableEq, Repr

/-- R8: the parameters of the block. No step changes them. -/
structure Config where
  /-- `PLANE_BYTES`. -/
  planeBytes : Nat
  /-- `TOTAL_LINES`. -/
  totalLines : Nat
  /-- `HONOR_DE` (R327). -/
  honorDe : Bool
  /-- `UART_ECHO` (R146). -/
  uartEcho : Bool
  /-- `COMPOSITE` (R305). -/
  composite : Composite
  /-- `TIMER_TICK` (R172). -/
  timerTick : Nat
  /-- `LINE_PERIOD` (R328). -/
  linePeriod : Nat
  /-- `MCD212_LAYOUT`: the register at each index `k` of an 8-word block (R30, 92 D10). -/
  slotLayout : List (Nat × SlotReg)
  /-- `MCD212_LAYOUT`: the places of the fields inside the registers (R31, R32, R34, 92 D6, D7, D8, D11). -/
  bits : DisplayBits
  /-- `PERIPH_LAYOUT`: the contents of each listed byte offset of the page (R50). -/
  periphLayout : List (Nat × PeriphWord)
  /-- `REGSET_MAP`: the register each assigned opcode byte names (R251). -/
  regsetMap : List (Byte × RegName)
  /-- `PLANE_A_BASE`: the CPU bus address of plane A (R96). -/
  planeABase : Nat
  /-- `PLANE_B_BASE`: the CPU bus address of plane B (R96). -/
  planeBBase : Nat
  /-- `MCD212_BASE`: the CPU bus address of the MCD212 page (R96). -/
  mcd212Base : Nat
  /-- `PERIPH_BASE`: the CPU bus address of the peripheral page (R96). -/
  periphBase : Nat
  /-- How many bytes of bus addresses the peripheral page takes, which the spec does not say (log entry 20). -/
  periphBytes : Nat
deriving DecidableEq, Repr

/-! ## Constants fixed by the source (R8) -/

/-- `LINE_PIXELS`: pixels per output scanline. -/
def Config.linePixels : Nat := 768

/-- `ICA_START_WORD`: the word offset where an ICA starts. -/
def Config.icaStartWord : Nat := 0x200

/-- `DCA_MAX_CM0`: the DCA command cap with colour mode clear. -/
def Config.dcaMaxCm0 : Nat := 32

/-- `DCA_MAX_CM1`: the DCA command cap with colour mode set. -/
def Config.dcaMaxCm1 : Nat := 64

/-- `FIRST_ACTIVE_LINE`: the first line rendered. -/
def Config.firstActiveLine : Nat := 22

/-- `VEC_ONCHIP_BASE`: vector base of Timer0 and ICA interrupts. -/
def Config.vecOnchipBase : Nat := 56

/-- `VEC_AUTO_BASE`: vector base of DCA interrupts. -/
def Config.vecAutoBase : Nat := 24

/-- The default of `PLANE_BYTES` (R8, 92 D2). -/
def Config.defaultPlaneBytes : Nat := 0x80000

/-- The default of `TOTAL_LINES` (R8, 92 D29). -/
def Config.defaultTotalLines : Nat := 262

/-! ## OPEN constants and free values

None of these has a body that a proof can use. Log entries 1 to 7 and 20 say what each stands for. -/

/-- One less than the OPEN constant `TIMER_TICK`. -/
opaque Config.openTimerTickPred : Nat

/-- One less than the OPEN constant `LINE_PERIOD`. -/
opaque Config.openLinePeriodPred : Nat

/-- The OPEN constant `TIMER_TICK` (R172), taken to be positive. -/
def Config.openTimerTick : Nat := Config.openTimerTickPred + 1

/-- The OPEN constant `LINE_PERIOD` (R328), taken to be positive. -/
def Config.openLinePeriod : Nat := Config.openLinePeriodPred + 1

/-- The time from a machine reset to its first scan event, which the spec does not give (R70). -/
opaque Config.firstScanDelay : Nat → Nat

/-- R84: an 8-bit value drawn at a plane read at or beyond `PLANE_BYTES`; the argument numbers the draw. -/
opaque Config.freeByte : Nat → Byte

/-- R300: one pixel of a line in an unimplemented display mode; the argument numbers the draw. -/
opaque Config.freePixel : Nat → Pixel

/-- R357: whether Timer0 goes first when both events are due at one time; the argument numbers the draw. -/
opaque Config.freeTie : Nat → Bool

/-- R70: a plane byte nothing has written since machine reset number `epoch`. -/
opaque Config.resetPlane : (epoch : Nat) → Channel → (address : Nat) → Byte

/-- R70: a CLUT entry nothing has written since machine reset number `epoch`. -/
opaque Config.resetClut : (epoch : Nat) → Channel → (index : Nat) → Pixel

/-- R70: the vector of an interrupt line before its first assertion after machine reset number `epoch`. -/
opaque Config.resetVector : (epoch : Nat) → (line : Nat) → Byte

/-- The OPEN constant `PLANE_A_BASE` (R96). -/
opaque Config.openPlaneABase : Nat

/-- The OPEN constant `PLANE_B_BASE` (R96). -/
opaque Config.openPlaneBBase : Nat

/-- The OPEN constant `MCD212_BASE` (R96). -/
opaque Config.openMcd212Base : Nat

/-- The OPEN constant `PERIPH_BASE` (R96). -/
opaque Config.openPeriphBase : Nat

/-- How far the peripheral page goes beyond the last word its default layout lists (log entry 20). -/
opaque Config.openPeriphExtra : Nat

end Sys2Proof
end

