-- ==== Sys2Proof/WellFormed.lean ====
section
/-!
DEFINITION. Which commands the language has (spec/45_dlp_register_set.md R280), and in which mode a walk can decode them
(spec/30_encoding.md R116). Every other operand has exactly the values its field can hold.
-/
namespace Sys2Proof

/-- R280: the opcodes that reach the register-set dispatch and match no register of the default numbering. -/
def unassignedOpcode (op : Byte) : Bool :=
  (0x70 ≤ op.toNat && op.toNat < 0x78) || op == 0xC5 || op == 0xC8 || op == 0xCC || 0xDD ≤ op.toNat

/-- The one field whose width admits more values than the language has: the number of an unassigned register. -/
def Instr.wellFormed : Instr → Bool
  | .regsetUnassigned reg => unassignedOpcode reg
  | _ => true

/-- R116: the two opcode nibbles whose command depends on the mode. -/
def Instr.validIn (m : Mode) : Instr → Bool
  | .reloadDcp _ => m == .ica
  | .reloadDcpInert => m == .dca
  | .reloadIca _ => m == .ica
  | .reloadVsr _ => m == .dca
  | _ => true

end Sys2Proof
end

