-- ==== Sys2Proof/Decode.lean ====
section
/-!
DEFINITION. Command words and commands (spec/30_encoding.md R110 to R121): the decoder, total on every word in both modes
(R117), the canonical encoder (R120), and the opcode table as data.
The register numbers of REGISTER SET are the parameter `REGSET_MAP` (R251); the encoder writes its default numbers.
-/
namespace Sys2Proof

/-! ## Fields of a command word (R110, R111) -/

/-- The opcode byte, bits 31:24. -/
def cmdOpcode (cmd : Command) : Byte := cmd.extractLsb' 24 8

/-- The operand, bits 23:0. -/
def cmdOperand (cmd : Command) : Operand := cmd.extractLsb' 0 24

/-- Format A: `addr = operand[20:0]`; operand bits 23:21 are ignored. -/
def operandAddr (operand : Operand) : Addr21 := operand.extractLsb' 0 21

/-- The four bytes of a command, most significant first (R83, R110). -/
def joinCommand (b0 b1 b2 b3 : Byte) : Command := b0 ++ b1 ++ b2 ++ b3

/-- A command word from its opcode byte and operand. -/
def mkCommand (op : Byte) (operand : Operand) : Command := op ++ operand

/-! ## REGSET_MAP (R251) -/

/-- The default number of each register (R251). -/
def RegName.number : RegName → Byte
  | .clut slot => 0x80#8 + slot.setWidth 8
  | .icm => 0xC0
  | .tcr => 0xC1
  | .por => 0xC2
  | .clutBank => 0xC3
  | .tca => 0xC4
  | .tcb => 0xC6
  | .mca => 0xC7
  | .mcb => 0xC9
  | .dyuva => 0xCA
  | .dyuvb => 0xCB
  | .curpos => 0xCD
  | .curcnt => 0xCE
  | .curpat => 0xCF
  | .rc n => 0xD0#8 + n.setWidth 8
  | .backdrop => 0xD8
  | .mha => 0xD9
  | .mhb => 0xDA
  | .wfa => 0xDB
  | .wfb => 0xDC

/-- The default table of R251, row by row. -/
def RegsetMap.default : List (Byte × RegName) :=
  (List.range 64).map (fun i => (BitVec.ofNat 8 (0x80 + i), RegName.clut (BitVec.ofNat 6 i)))
  ++ [(0xC0, .icm), (0xC1, .tcr), (0xC2, .por), (0xC3, .clutBank), (0xC4, .tca), (0xC6, .tcb), (0xC7, .mca),
      (0xC9, .mcb), (0xCA, .dyuva), (0xCB, .dyuvb), (0xCD, .curpos), (0xCE, .curcnt), (0xCF, .curpat)]
  ++ (List.range 8).map (fun i => (BitVec.ofNat 8 (0xD0 + i), RegName.rc (BitVec.ofNat 3 i)))
  ++ [(0xD8, .backdrop), (0xD9, .mha), (0xDA, .mhb), (0xDB, .wfa), (0xDC, .wfb)]

/-- The command that sets a named register from an operand (R251, formats R, RB and RP of R111). -/
def RegName.setCommand (r : RegName) (operand : Operand) : Instr :=
  match r with
  | .clut slot => .setClut slot operand
  | .icm => .setIcm operand
  | .tcr => .setTcr operand
  | .por => .setPor operand
  | .clutBank => .setClutBank (operand.extractLsb' 0 2)
  | .tca => .setTca operand
  | .tcb => .setTcb operand
  | .mca => .setMca operand
  | .mcb => .setMcb operand
  | .dyuva => .setDyuva operand
  | .dyuvb => .setDyuvb operand
  | .curpos => .setCurpos operand
  | .curcnt => .setCurcnt operand
  | .curpat => .setCurpat (operand.extractLsb' 16 4) (operand.extractLsb' 0 16)
  | .rc n => .setRc n operand
  | .backdrop => .setBackdrop operand
  | .mha => .setMha operand
  | .mhb => .setMhb operand
  | .wfa => .setWfa operand
  | .wfb => .setWfb operand

/-! ## Decoding -/

/-- R250: the register-set dispatch; a number with no register is REGSET_UNASSIGNED (R280). -/
def decodeRegset (map : List (Byte × RegName)) (op : Byte) (operand : Operand) : Instr :=
  match map.lookup op with
  | some r => r.setCommand operand
  | none => .regsetUnassigned op

/-- R114, R116: the command a word stands for in a mode. Every word is some command (R117). -/
def decode (map : List (Byte × RegName)) (m : Mode) (cmd : Command) : Instr :=
  let op := cmdOpcode cmd
  let operand := cmdOperand cmd
  let addr := operandAddr operand
  if op.toNat < 0x10 then .stop
  else if op.toNat < 0x20 then .nop
  else if op.toNat < 0x30 then
    match m with
    | .ica => .reloadDcp addr
    | .dca => .reloadDcpInert
  else if op.toNat < 0x40 then .reloadDcpStop addr
  else if op.toNat < 0x50 then
    match m with
    | .ica => .reloadIca addr
    | .dca => .reloadVsr addr
  else if op.toNat < 0x60 then .reloadVsrStop addr
  else if op.toNat < 0x70 then .interrupt
  else if 0x78 ≤ op.toNat && op.toNat < 0x80 then
    .reloadDisplayParameters (operand.getLsbD 4) (operand.extractLsb' 0 4)
  else decodeRegset map op operand

/-- Why a byte sequence holds no command. -/
inductive DecodeError where
  /-- Fewer than the four bytes of a command (R110). -/
  | tooShort
deriving DecidableEq, Repr

/-- Read one command from bytes laid out as in a plane; the rest of the bytes is returned with it. -/
def decodeBytes (map : List (Byte × RegName)) (m : Mode) : List Byte → Except DecodeError (Instr × List Byte)
  | b0 :: b1 :: b2 :: b3 :: rest => .ok (decode map m (joinCommand b0 b1 b2 b3), rest)
  | _ => .error .tooShort

/-! ## Encoding (R120) -/

/-- The operand of a format A command: operand bits 23:21 are 0. -/
def addrOperand (addr : Addr21) : Operand := addr.setWidth 24

/-- The canonical word of a command: insignificant opcode bits and ignored operand bits are 0, register numbers are the
default ones. -/
def encode : Instr → Command
  | .stop => mkCommand 0x00 0
  | .nop => mkCommand 0x10 0
  | .reloadDcp addr => mkCommand 0x20 (addrOperand addr)
  | .reloadDcpInert => mkCommand 0x20 0
  | .reloadDcpStop addr => mkCommand 0x30 (addrOperand addr)
  | .reloadIca addr => mkCommand 0x40 (addrOperand addr)
  | .reloadVsr addr => mkCommand 0x40 (addrOperand addr)
  | .reloadVsrStop addr => mkCommand 0x50 (addrOperand addr)
  | .interrupt => mkCommand 0x60 0
  | .regsetUnassigned reg => mkCommand reg 0
  | .reloadDisplayParameters cm dp => mkCommand 0x78 ((BitVec.ofBool cm ++ dp).setWidth 24)
  | .setClut slot value => mkCommand (RegName.clut slot).number value
  | .setIcm value => mkCommand RegName.icm.number value
  | .setTcr value => mkCommand RegName.tcr.number value
  | .setPor value => mkCommand RegName.por.number value
  | .setClutBank bank => mkCommand RegName.clutBank.number (bank.setWidth 24)
  | .setTca value => mkCommand RegName.tca.number value
  | .setTcb value => mkCommand RegName.tcb.number value
  | .setMca value => mkCommand RegName.mca.number value
  | .setMcb value => mkCommand RegName.mcb.number value
  | .setDyuva value => mkCommand RegName.dyuva.number value
  | .setDyuvb value => mkCommand RegName.dyuvb.number value
  | .setCurpos value => mkCommand RegName.curpos.number value
  | .setCurcnt value => mkCommand RegName.curcnt.number value
  | .setCurpat index word => mkCommand RegName.curpat.number ((index ++ word).setWidth 24)
  | .setRc n value => mkCommand (RegName.rc n).number value
  | .setBackdrop value => mkCommand RegName.backdrop.number value
  | .setMha value => mkCommand RegName.mha.number value
  | .setMhb value => mkCommand RegName.mhb.number value
  | .setWfa value => mkCommand RegName.wfa.number value
  | .setWfb value => mkCommand RegName.wfb.number value

/-- Byte `i` of a command in memory, most significant first (R110). -/
def commandByte (cmd : Command) (i : Fin 4) : Byte := cmd.extractLsb' (24 - 8 * i.val) 8

/-- The bytes of a command as a plane stores them. -/
def commandBytes (cmd : Command) : List Byte := [commandByte cmd 0, commandByte cmd 1, commandByte cmd 2, commandByte cmd 3]

/-- The bits of a word that the command it decodes to depends on (R111, R112): the rest may hold any value. -/
def significantMask : Instr → Command
  | .stop => 0xF0000000
  | .nop => 0xF0000000
  | .reloadDcp _ => 0xF01FFFFF
  | .reloadDcpInert => 0xF0000000
  | .reloadDcpStop _ => 0xF01FFFFF
  | .reloadIca _ => 0xF01FFFFF
  | .reloadVsr _ => 0xF01FFFFF
  | .reloadVsrStop _ => 0xF01FFFFF
  | .interrupt => 0xF0000000
  | .regsetUnassigned _ => 0xFF000000
  | .reloadDisplayParameters _ _ => 0xF800001F
  | .setClutBank _ => 0xFF000003
  | .setCurpat _ _ => 0xFF0FFFFF
  | .setClut _ _ | .setIcm _ | .setTcr _ | .setPor _ | .setTca _ | .setTcb _ | .setMca _ | .setMcb _
  | .setDyuva _ | .setDyuvb _ | .setCurpos _ | .setCurcnt _ | .setRc _ _ | .setBackdrop _ | .setMha _
  | .setMhb _ | .setWfa _ | .setWfb _ => 0xFFFFFFFF

/-! ## The opcode table (R114) -/

/-- The mnemonic of a command, as spec/opcode_table.json writes it. -/
def Instr.mnemonic : Instr → String
  | .stop => "STOP"
  | .nop => "NOP"
  | .reloadDcp _ => "RELOAD_DCP"
  | .reloadDcpInert => "RELOAD_DCP_INERT"
  | .reloadDcpStop _ => "RELOAD_DCP_STOP"
  | .reloadIca _ => "RELOAD_ICA"
  | .reloadVsr _ => "RELOAD_VSR"
  | .reloadVsrStop _ => "RELOAD_VSR_STOP"
  | .interrupt => "INTERRUPT"
  | .regsetUnassigned _ => "REGSET_UNASSIGNED"
  | .reloadDisplayParameters _ _ => "RELOAD_DISPLAY_PARAMETERS"
  | .setClut _ _ => "SET_CLUT"
  | .setIcm _ => "SET_ICM"
  | .setTcr _ => "SET_TCR"
  | .setPor _ => "SET_POR"
  | .setClutBank _ => "SET_CLUT_BANK"
  | .setTca _ => "SET_TCA"
  | .setTcb _ => "SET_TCB"
  | .setMca _ => "SET_MCA"
  | .setMcb _ => "SET_MCB"
  | .setDyuva _ => "SET_DYUVA"
  | .setDyuvb _ => "SET_DYUVB"
  | .setCurpos _ => "SET_CURPOS"
  | .setCurcnt _ => "SET_CURCNT"
  | .setCurpat _ _ => "SET_CURPAT"
  | .setRc _ _ => "SET_RC"
  | .setBackdrop _ => "SET_BACKDROP"
  | .setMha _ => "SET_MHA"
  | .setMhb _ => "SET_MHB"
  | .setWfa _ => "SET_WFA"
  | .setWfb _ => "SET_WFB"

/-- One row of the opcode table; `mode` is `none` for a row of both modes. -/
structure OpcodeRow where
  mnemonic : String
  pattern : Command
  mask : Command
  mode : Option Mode
deriving DecidableEq, Repr

/-- A row matches a word in a mode. -/
def OpcodeRow.covers (r : OpcodeRow) (m : Mode) (cmd : Command) : Bool :=
  cmd &&& r.mask == r.pattern && (r.mode == none || r.mode == some m)

/-- The 38 rows of spec/opcode_table.json, in its order. -/
def opcodeTable : List OpcodeRow :=
  [⟨"STOP", 0x00000000, 0xF0000000, none⟩, ⟨"NOP", 0x10000000, 0xF0000000, none⟩,
   ⟨"RELOAD_DCP", 0x20000000, 0xF0000000, some .ica⟩, ⟨"RELOAD_DCP_INERT", 0x20000000, 0xF0000000, some .dca⟩,
   ⟨"RELOAD_DCP_STOP", 0x30000000, 0xF0000000, none⟩, ⟨"RELOAD_ICA", 0x40000000, 0xF0000000, some .ica⟩,
   ⟨"RELOAD_VSR", 0x40000000, 0xF0000000, some .dca⟩, ⟨"RELOAD_VSR_STOP", 0x50000000, 0xF0000000, none⟩,
   ⟨"INTERRUPT", 0x60000000, 0xF0000000, none⟩, ⟨"REGSET_UNASSIGNED", 0x70000000, 0xF8000000, none⟩,
   ⟨"RELOAD_DISPLAY_PARAMETERS", 0x78000000, 0xF8000000, none⟩, ⟨"SET_CLUT", 0x80000000, 0xC0000000, none⟩,
   ⟨"SET_ICM", 0xC0000000, 0xFF000000, none⟩, ⟨"SET_TCR", 0xC1000000, 0xFF000000, none⟩,
   ⟨"SET_POR", 0xC2000000, 0xFF000000, none⟩, ⟨"SET_CLUT_BANK", 0xC3000000, 0xFF000000, none⟩,
   ⟨"SET_TCA", 0xC4000000, 0xFF000000, none⟩, ⟨"REGSET_UNASSIGNED", 0xC5000000, 0xFF000000, none⟩,
   ⟨"SET_TCB", 0xC6000000, 0xFF000000, none⟩, ⟨"SET_MCA", 0xC7000000, 0xFF000000, none⟩]
  ++ [⟨"REGSET_UNASSIGNED", 0xC8000000, 0xFF000000, none⟩, ⟨"SET_MCB", 0xC9000000, 0xFF000000, none⟩,
   ⟨"SET_DYUVA", 0xCA000000, 0xFF000000, none⟩, ⟨"SET_DYUVB", 0xCB000000, 0xFF000000, none⟩,
   ⟨"REGSET_UNASSIGNED", 0xCC000000, 0xFF000000, none⟩, ⟨"SET_CURPOS", 0xCD000000, 0xFF000000, none⟩,
   ⟨"SET_CURCNT", 0xCE000000, 0xFF000000, none⟩, ⟨"SET_CURPAT", 0xCF000000, 0xFF000000, none⟩,
   ⟨"SET_RC", 0xD0000000, 0xF8000000, none⟩, ⟨"SET_BACKDROP", 0xD8000000, 0xFF000000, none⟩,
   ⟨"SET_MHA", 0xD9000000, 0xFF000000, none⟩, ⟨"SET_MHB", 0xDA000000, 0xFF000000, none⟩,
   ⟨"SET_WFA", 0xDB000000, 0xFF000000, none⟩, ⟨"SET_WFB", 0xDC000000, 0xFF000000, none⟩,
   ⟨"REGSET_UNASSIGNED", 0xDD000000, 0xFF000000, none⟩, ⟨"REGSET_UNASSIGNED", 0xDE000000, 0xFF000000, none⟩,
   ⟨"REGSET_UNASSIGNED", 0xDF000000, 0xFF000000, none⟩, ⟨"REGSET_UNASSIGNED", 0xE0000000, 0xE0000000, none⟩]

/-- The command the decoder reads from a table word of `nbits` bits, every bit above `nbits` 0: the word is laid out as a
plane stores it and decoded in ICA mode under the default register numbers (log entry 11). -/
def decodeTableWord (nbits w : Nat) : Option Instr :=
  match decodeBytes RegsetMap.default .ica (commandBytes (BitVec.ofNat 32 (w % 2 ^ nbits))) with
  | .ok (i, _) => some i
  | .error _ => none

end Sys2Proof
end

