-- ==== Sys2Proof/Machine/Layout.lean ====
section
/-!
DEFINITION. The default layouts of the two register pages (spec/10_state.md R30, R50) and the default configuration
(spec/00_scope.md R8).
-/
namespace Sys2Proof.Machine

/-- R30: the register at each index `k` of an 8-word block; indices 3, 6 and 7 hold none. -/
def defaultSlotLayout : List (Nat × SlotReg) :=
  [(0, .status), (1, .dcr), (2, .vsr), (4, .ddr), (5, .dcp)]

/-- R31, R32, R34, 92 D6, D7, D8, D11: the default places of the fields. -/
def defaultBits : DisplayBits :=
  { de := 15, cf := 14, fd := 13, sm := 12, cm := 11, ica := 9, dca := 8, vsrHigh := 0, dp := 8, ft := 8, dcpHigh := 0,
    da := 7 }

/-- R50: a word whose high lane is empty. -/
def lowByte (r : ByteReg) : PeriphWord := .bytes none (some r)

/-- R50: a word with a register in each lane. -/
def bothBytes (high low : ByteReg) : PeriphWord := .bytes (some high) (some low)

/-- R50: LIR, I2C, UART, timers and PICRs. -/
def scalarRows : List (Nat × PeriphWord) :=
  [(0x1000, lowByte .lir),
   (0x2000, lowByte .i2cData), (0x2002, lowByte .i2cAddress), (0x2004, lowByte .i2cStatus),
   (0x2006, lowByte .i2cControl), (0x2008, lowByte .i2cClock),
   (0x2010, lowByte .uartMode), (0x2012, lowByte .uartStatus), (0x2014, lowByte .uartClockSelect),
   (0x2016, lowByte .uartCommand), (0x2018, lowByte .uartThr), (0x201A, lowByte .uartRhr),
   (0x2020, bothBytes .tsr .tcr),
   (0x2022, .word .reload), (0x2024, .word .t0), (0x2026, .word .t1), (0x2028, .word .t2),
   (0x2044, lowByte .picr1), (0x2046, lowByte .picr2)]

/-- R50, R57: DMA channel block `j`. -/
def dmaRows (j : Fin 2) : List (Nat × PeriphWord) :=
  let base := 0x4000 + 0x40 * j.val
  [(base + 0x00, bothBytes (.dmaStatus j) (.dmaError j)),
   (base + 0x04, bothBytes (.dmaDeviceControl j) (.dmaOperationControl j)),
   (base + 0x06, bothBytes (.dmaSequenceControl j) (.dmaChannelControl j)),
   (base + 0x0A, .word (.dmaTransferCounter j)),
   (base + 0x0C, lowByte (.dmaMemoryHigh j)), (base + 0x0E, .word (.dmaMemoryLow j)),
   (base + 0x14, lowByte (.dmaDeviceHigh j)), (base + 0x16, .word (.dmaDeviceLow j))]

/-- R50, R58: MMU segment descriptor `i`. -/
def mmuRows (i : Fin 8) : List (Nat × PeriphWord) :=
  let base := 0x8040 + 8 * i.val
  [(base, .word (.mmuAttr i)), (base + 2, .word (.mmuLength i)),
   (base + 4, lowByte (.mmuSegmentNumber i)), (base + 6, .word (.mmuBase i))]

/-- R50: the default of `PERIPH_LAYOUT`. -/
def defaultPeriphLayout : List (Nat × PeriphWord) :=
  scalarRows ++ dmaRows 0 ++ dmaRows 1
  ++ mmuRows 0 ++ mmuRows 1 ++ mmuRows 2 ++ mmuRows 3 ++ mmuRows 4 ++ mmuRows 5 ++ mmuRows 6 ++ mmuRows 7

/-- R8: every parameter at its default, the OPEN ones at constants nothing is known of. -/
def defaultConfig : Config where
  planeBytes := Config.defaultPlaneBytes
  totalLines := Config.defaultTotalLines
  honorDe := false
  uartEcho := false
  composite := .channelA
  timerTick := Config.openTimerTick
  linePeriod := Config.openLinePeriod
  slotLayout := defaultSlotLayout
  bits := defaultBits
  periphLayout := defaultPeriphLayout
  regsetMap := RegsetMap.default
  planeABase := Config.openPlaneABase
  planeBBase := Config.openPlaneBBase
  mcd212Base := Config.openMcd212Base
  periphBase := Config.openPeriphBase
  periphBytes := 0x8080 + Config.openPeriphExtra

end Sys2Proof.Machine
end

