-- ==== Sys2Proof/Machine/State.lean ====
section
/-!
DEFINITION. The state of the block (spec/10_state.md R20 to R65), its reset value (R70) and the ways a step can stop.
State is plain data; INVENTORY.md lists every field with its rule and reset value.
-/
namespace Sys2Proof.Machine

/-- Sparse contents by address: strictly rising addresses, an unlisted address holds no written value. -/
abbrev Memory (α : Type) := List (Nat × α)

/-- A plane: written bytes by byte address (R81), in the host's cells. -/
abbrev Plane := List Host.Cell

/-- The state that exists once per channel (R31 to R36, R40, R41, R46). -/
structure DisplayChannel where
  csrr : Byte
  csrw : Half
  dcr : Half
  vsr : Half
  ddr : Half
  dcp : Half
  clut : Memory Pixel
  clutBank : BitVec 2
  rc : Vector Operand 8
deriving DecidableEq, Repr

/-- The display registers that exist once (R42 to R45, R47). -/
structure DisplayRegs where
  icm : Operand
  tcr : Operand
  por : Operand
  tca : Operand
  tcb : Operand
  mca : Operand
  mcb : Operand
  dyuva : Operand
  dyuvb : Operand
  curpos : Operand
  curcnt : Operand
  curpat : Vector Half 16
  backdrop : Operand
  mha : Operand
  mhb : Operand
  wfa : Operand
  wfb : Operand
deriving DecidableEq, Repr

/-- One DMA channel block (R57). -/
structure DmaBlock where
  status : Byte
  error : Byte
  deviceControl : Byte
  operationControl : Byte
  sequenceControl : Byte
  channelControl : Byte
  memoryAddress : BitVec 24
  deviceAddress : BitVec 24
  transferCounter : Half
deriving DecidableEq, Repr

/-- One MMU segment descriptor (R58). -/
structure MmuDescriptor where
  attr : Half
  length : Half
  segmentNumber : Byte
  base : Half
deriving DecidableEq, Repr

/-- The peripheral register block `P` (R51 to R58). -/
structure Peripherals where
  lir : Byte
  i2cData : Byte
  i2cAddress : Byte
  i2cStatus : Byte
  i2cControl : Byte
  i2cClock : Byte
  uartMode : Byte
  uartStatus : Byte
  uartClockSelect : Byte
  uartCommand : Byte
  uartThr : Byte
  uartRhr : Byte
  reload : Half
  t0 : Half
  t1 : Half
  t2 : Half
  tsr : Byte
  tcr : Byte
  picr1 : Byte
  picr2 : Byte
  dma : Vector DmaBlock 2
  mmu : Vector MmuDescriptor 8
deriving DecidableEq, Repr

/-- One CPU interrupt line: its level and the vector last attached to it (R63). -/
structure IrqPort where
  level : Bool
  vector : Byte
deriving DecidableEq, Repr

/-- R63: the lines 1 to 7; line `n` is element `n - 1`. -/
abbrev IrqLine := Fin 7

/-- One record of the video output (R64, R325). -/
structure VideoRecord where
  line : Nat
  pxA : List Pixel
  pxB : List Pixel
  out : List Pixel
deriving DecidableEq, Repr

/-- What the diagnostic log can say (R343). -/
inductive LogEvent where
  | unimplementedRegister
  | reloadDcpInDca
  | unknownRegister
  | unimplementedMode
deriving DecidableEq, Repr

/-- The registers of the walker's invocation (R48, R211). `running` says whether one is in progress; `stop` is what
`Execute` returned. -/
structure Walker where
  running : Bool
  chan : Channel
  mode : Mode
  ip : Nat
  count : Nat
  max : Nat
  dcpReloaded : Bool
  stop : Bool
deriving DecidableEq, Repr

/-- Byte-lane masks 0xFF00, 0x00FF and 0xFFFF (R88). -/
inductive Lanes where
  | high
  | low
  | both
deriving DecidableEq, Repr

/-- What can happen to the block from outside (R12, R380). `busRead` and `busWrite` are CPU accesses of a 16-bit word by its
bus address (R96); the six before them are the accesses a bus address stands for, by page or plane. Plane and peripheral
accesses name a word: the byte address or byte offset is twice the number. -/
inductive External where
  | planeRead (c : Channel) (word : Nat)
  | planeWrite (c : Channel) (word : Nat) (m : Lanes) (d : Half)
  | mcd212Read (offset : BitVec 4) (m : Lanes)
  | mcd212Write (offset : BitVec 4) (m : Lanes) (d : Half)
  | periphRead (word : Nat) (m : Lanes)
  | periphWrite (word : Nat) (m : Lanes) (d : Half)
  | busRead (address : Nat) (m : Lanes)
  | busWrite (address : Nat) (m : Lanes) (d : Half)
  | machineReset
deriving DecidableEq, Repr

/-- An external event and the virtual time it is scheduled at (R356). -/
structure Scheduled where
  due : Nat
  event : External
deriving DecidableEq, Repr

/-- The whole state: the triple (`V`, `P`, `S`) and the two planes (R20), the walker's registers (R48), the configuration
(R8), and the model's own fields. -/
structure State where
  /-- R8; no step changes it. -/
  config : Config
  /-- Plane memory A, channel 0's (R80). -/
  planeA : Plane
  /-- Plane memory B, channel 1's (R80). -/
  planeB : Plane
  /-- `V.ch[0]`. -/
  chA : DisplayChannel
  /-- `V.ch[1]`. -/
  chB : DisplayChannel
  /-- The registers of `V` that exist once. -/
  regs : DisplayRegs
  /-- `P`. -/
  periph : Peripherals
  /-- `S.line` (R60). -/
  line : Nat
  /-- Virtual time (R172). -/
  now : Nat
  /-- `S.scan_due` (R61). -/
  scanDue : Nat
  /-- `S.t0_armed` (R62). -/
  t0Armed : Bool
  /-- `S.t0_due` (R62). -/
  t0Due : Nat
  /-- `S.irq_level` and `S.irq_vector` (R63). -/
  irq : Vector IrqPort 7
  /-- `S.video_out` (R64). -/
  videoOut : List VideoRecord
  /-- `S.uart_out` (R64). -/
  uartOut : List Byte
  /-- The invocation of the command walker (R48). -/
  walk : Walker
  /-- The model's own: external events still to come, in order. -/
  agenda : List Scheduled
  /-- The model's own: the values the CPU's reads returned, in order. -/
  busOut : List Half
  /-- The model's own: the ghost trace of the diagnostic log (R343). -/
  log : List LogEvent
  /-- The model's own: how many free values have been drawn (R13). -/
  freeCount : Nat
  /-- The model's own: how many machine resets there have been. -/
  epoch : Nat
deriving DecidableEq, Repr

/-- Why the machine stops with a fault: it never does. The block raises no synchronous exception and the spec defines no
fault (R13, R340), so there is no constructor; that is safe, for no step can hide an outcome here. -/
inductive Fault where
deriving DecidableEq, Repr

/-- Why a step has no meaning in the model. -/
inductive Refusal where
  /-- Raised by the dispatch for a command that has no meaning yet. Safe: nothing is claimed of it. -/
  | notModelled (mnemonic : String)
  /-- Raised by a CPU access to a plane byte at or beyond `PLANE_BYTES` (93 U21), and by one at a bus address that is not in
  exactly one plane or page (R96): it is not routed to the block, and what the bus does with it is the platform's. Safe:
  nothing is claimed of it. -/
  | accessNotRouted
deriving DecidableEq, Repr

/-! ## Reset (R70) -/

/-- R70: a channel's registers are 0 and nothing has been written to its CLUT. -/
def DisplayChannel.reset : DisplayChannel :=
  { csrr := 0, csrw := 0, dcr := 0, vsr := 0, ddr := 0, dcp := 0, clut := [], clutBank := 0,
    rc := Vector.replicate 8 0 }

/-- R70: the single display registers are 0. -/
def DisplayRegs.reset : DisplayRegs :=
  { icm := 0, tcr := 0, por := 0, tca := 0, tcb := 0, mca := 0, mcb := 0, dyuva := 0, dyuvb := 0, curpos := 0,
    curcnt := 0, curpat := Vector.replicate 16 0, backdrop := 0, mha := 0, mhb := 0, wfa := 0, wfb := 0 }

/-- R70: a DMA block is 0. -/
def DmaBlock.reset : DmaBlock :=
  { status := 0, error := 0, deviceControl := 0, operationControl := 0, sequenceControl := 0, channelControl := 0,
    memoryAddress := 0, deviceAddress := 0, transferCounter := 0 }

/-- R70: an MMU descriptor is 0. -/
def MmuDescriptor.reset : MmuDescriptor := { attr := 0, length := 0, segmentNumber := 0, base := 0 }

/-- R70: every register of `P` is 0. -/
def Peripherals.reset : Peripherals :=
  { lir := 0, i2cData := 0, i2cAddress := 0, i2cStatus := 0, i2cControl := 0, i2cClock := 0, uartMode := 0,
    uartStatus := 0, uartClockSelect := 0, uartCommand := 0, uartThr := 0, uartRhr := 0, reload := 0, t0 := 0,
    t1 := 0, t2 := 0, tsr := 0, tcr := 0, picr1 := 0, picr2 := 0, dma := Vector.replicate 2 DmaBlock.reset,
    mmu := Vector.replicate 8 MmuDescriptor.reset }

/-- R70: every line is deasserted and its vector is unspecified. -/
def IrqPort.reset (epoch : Nat) (line : Nat) : IrqPort := { level := false, vector := Config.resetVector epoch line }

/-- R48: no invocation is in progress. -/
def Walker.idle : Walker :=
  { running := false, chan := .a, mode := .ica, ip := 0, count := 0, max := 0, dcpReloaded := false, stop := false }

/-- R70, R380: the state right after machine reset number `epoch` at virtual time `now`. -/
def State.resetAt (config : Config) (epoch now freeCount : Nat) (agenda : List Scheduled) : State :=
  { config := config, planeA := [], planeB := [], chA := DisplayChannel.reset, chB := DisplayChannel.reset,
    regs := DisplayRegs.reset, periph := Peripherals.reset, line := 0, now := now,
    scanDue := now + Config.firstScanDelay epoch, t0Armed := false, t0Due := 0,
    irq := #v[IrqPort.reset epoch 1, IrqPort.reset epoch 2, IrqPort.reset epoch 3, IrqPort.reset epoch 4,
      IrqPort.reset epoch 5, IrqPort.reset epoch 6, IrqPort.reset epoch 7],
    videoOut := [], uartOut := [], walk := Walker.idle, agenda := agenda, busOut := [], log := [],
    freeCount := freeCount, epoch := epoch }

/-- The machine right after reset, with the default configuration. -/
def State.reset : State := State.resetAt defaultConfig 0 0 0 []

end Sys2Proof.Machine
end

