-- ==== Sys2Proof/Machine/Operands.lean ====
section
/-!
DEFINITION. Bit fields, byte lanes, the channel a command acts on, and the split address registers
(spec/00_scope.md R9, spec/20_memory.md R88, spec/42_mcd212_register_page.md R200 to R203).
-/
namespace Sys2Proof.Machine

/-! ## Bit fields (R9) -/

/-- `r[lo+n-1:lo] <- f`: every other bit of `r` is kept. -/
def putField {w n : Nat} (r : BitVec w) (lo : Nat) (f : BitVec n) : BitVec w :=
  (r &&& ~~~((BitVec.allOnes n).setWidth w <<< lo)) ||| (f.setWidth w <<< lo)

/-! ## Byte lanes (R88) -/

/-- Whether data bits 15:8 are selected. -/
def Lanes.hasHigh : Lanes → Bool
  | .high => true
  | .low => false
  | .both => true

/-- Whether data bits 7:0 are selected. -/
def Lanes.hasLow : Lanes → Bool
  | .high => false
  | .low => true
  | .both => true

/-- The mask of a lane selection: 0xFF00, 0x00FF or 0xFFFF. -/
def Lanes.mask : Lanes → Half
  | .high => 0xFF00
  | .low => 0x00FF
  | .both => 0xFFFF

/-- Data bits 15:8. -/
def highByte (d : Half) : Byte := d.extractLsb' 8 8

/-- Data bits 7:0. -/
def lowByteOf (d : Half) : Byte := d.extractLsb' 0 8

/-- `Combine(old, d, m)` (R88). -/
def combine (old d : Half) (m : Lanes) : Half := (old &&& ~~~m.mask) ||| (d &&& m.mask)

/-! ## Channels (R10) -/

/-- The per-channel registers of channel `c`. -/
def State.display (s : State) (c : Channel) : DisplayChannel :=
  match c with
  | .a => s.chA
  | .b => s.chB

/-- Replace the per-channel registers of channel `c`. -/
def State.setDisplay (s : State) (c : Channel) (d : DisplayChannel) : State :=
  { s with
    chA := match c with | .a => d | .b => s.chA
    chB := match c with | .a => s.chB | .b => d }

/-- The channel whose stream the running command comes from. -/
def State.chan (s : State) : Channel := s.walk.chan

/-! ## The split address registers -/

/-- `GetVSR` (R200): `dcr[5:0] : vsr`, the high field at its place in the layout. -/
def DisplayChannel.getVsr (d : DisplayChannel) (l : DisplayBits) : Addr22 := d.dcr.extractLsb' l.vsrHigh.val 6 ++ d.vsr

/-- `SetVSR` (R201): bits of `a` above bit 21 are lost and the other bits of DCR are kept. -/
def DisplayChannel.setVsr (d : DisplayChannel) (l : DisplayBits) (a : Nat) : DisplayChannel :=
  { d with vsr := BitVec.ofNat 16 a, dcr := putField d.dcr l.vsrHigh.val (BitVec.ofNat 6 (a / 0x10000)) }

/-- `GetDCP` (R202): `ddr[5:0] : dcp`, the high field at its place in the layout. -/
def DisplayChannel.getDcp (d : DisplayChannel) (l : DisplayBits) : Addr22 := d.ddr.extractLsb' l.dcpHigh.val 6 ++ d.dcp

/-- `SetDCP` (R203): bits of `a` above bit 21 are lost and the other bits of DDR are kept. -/
def DisplayChannel.setDcp (d : DisplayChannel) (l : DisplayBits) (a : Nat) : DisplayChannel :=
  { d with dcp := BitVec.ofNat 16 a, ddr := putField d.ddr l.dcpHigh.val (BitVec.ofNat 6 (a / 0x10000)) }

/-- `GetVSR(c)` (R200). -/
def getVsr (s : State) (c : Channel) : Addr22 := (s.display c).getVsr s.config.bits

/-- `SetVSR(c, a)` (R201). -/
def setVsr (s : State) (c : Channel) (a : Nat) : State := s.setDisplay c ((s.display c).setVsr s.config.bits a)

/-- `GetDCP(c)` (R202). -/
def getDcp (s : State) (c : Channel) : Addr22 := (s.display c).getDcp s.config.bits

/-- `SetDCP(c, a)` (R203). -/
def setDcp (s : State) (c : Channel) (a : Nat) : State := s.setDisplay c ((s.display c).setDcp s.config.bits a)

/-! ## Interrupt-line selectors (R51, R56, R242) -/

/-- The line a 3-bit selector names; selector 0 is "no interrupt" (R63). -/
def selectLine (n : BitVec 3) : Option IrqLine :=
  if h : n.toNat = 0 then none else some ⟨n.toNat - 1, by have := n.isLt; omega⟩

/-- The number of a line, 1 to 7. -/
def IrqLine.number (n : IrqLine) : Nat := n.val + 1

/-- R242: the LIR field of a channel's interrupt: `lir[6:4]` for channel 0, `lir[2:0]` for channel 1. -/
def lirSelector (lir : Byte) (c : Channel) : BitVec 3 :=
  match c with
  | .a => lir.extractLsb' 4 3
  | .b => lir.extractLsb' 0 3

/-- R173, R175: the selector of Timer0's interrupt, `picr1[2:0]`. -/
def picrSelector (picr1 : Byte) : BitVec 3 := picr1.extractLsb' 0 3

/-- R240: the vector base of INTERRUPT in a mode. -/
def vectorBase (m : Mode) : Nat :=
  match m with
  | .ica => Config.vecOnchipBase
  | .dca => Config.vecAutoBase

end Sys2Proof.Machine
end

