-- ==== Sys2Proof/Machine/Flags.lean ====
section
/-!
DEFINITION. The flags: DCR flags, DDR fields, status bits and the timer overflow flag
(spec/10_state.md R31, R32, R34, R55, R65). There are no condition codes.
-/
namespace Sys2Proof.Machine

/-- DE, display-enable (R32): DCR bit 15 in the default layout. -/
def DisplayChannel.displayEnable (d : DisplayChannel) (l : DisplayBits) : Bool := d.dcr.getLsbD l.de.val

/-- CM, colour mode (R32): DCR bit 11 in the default layout. -/
def DisplayChannel.colorMode (d : DisplayChannel) (l : DisplayBits) : Bool := d.dcr.getLsbD l.cm.val

/-- ICA-enable (R32): DCR bit 9 in the default layout. -/
def DisplayChannel.icaEnable (d : DisplayChannel) (l : DisplayBits) : Bool := d.dcr.getLsbD l.ica.val

/-- DCA-enable (R32): DCR bit 8 in the default layout. -/
def DisplayChannel.dcaEnable (d : DisplayChannel) (l : DisplayBits) : Bool := d.dcr.getLsbD l.dca.val

/-- FT, file type (R34): DDR bits 9:8 in the default layout. -/
def DisplayChannel.fileType (d : DisplayChannel) (l : DisplayBits) : BitVec 2 := d.ddr.extractLsb' l.ft.val 2

/-- R245: `ddr[11:8] <- dp; dcr[11] <- cm` in the default layout. -/
def DisplayChannel.setParameters (d : DisplayChannel) (l : DisplayBits) (cm : Bool) (dp : BitVec 4) : DisplayChannel :=
  { d with ddr := putField d.ddr l.dp.val dp, dcr := putField d.dcr l.cm.val (BitVec.ofBool cm) }

/-- The enable a walk in mode `m` is gated by (R323, R326). -/
def DisplayChannel.walkEnable (d : DisplayChannel) (l : DisplayBits) (m : Mode) : Bool :=
  match m with
  | .ica => d.icaEnable l
  | .dca => d.dcaEnable l

/-- R213: the command cap a DCA invocation samples when it starts. -/
def DisplayChannel.dcaCap (d : DisplayChannel) (l : DisplayBits) : Nat :=
  if d.colorMode l then Config.dcaMaxCm1 else Config.dcaMaxCm0

/-- The display-active flag DA takes `v` (R322, R324): `V.ch[0].csrr[7] <- v` in the default layout. -/
def setDisplayActive (s : State) (v : Bool) : State :=
  s.setDisplay .a { s.display .a with csrr := putField (s.display .a).csrr s.config.bits.da.val (BitVec.ofBool v) }

/-- R240: the status bit of a channel's INTERRUPT, `1 << (2 - c)`: IT1 for channel 0, IT2 for channel 1. -/
def interruptBit (c : Channel) : Byte :=
  match c with
  | .a => 0x04
  | .b => 0x02

/-- IT1 and IT2 together (R31). -/
def interruptBits : Byte := 0x06

/-- R240: set a channel's interrupt bit. It stands in channel 1's status register whichever channel issued it. -/
def setInterruptBit (s : State) (c : Channel) : State :=
  s.setDisplay .b { s.display .b with csrr := (s.display .b).csrr ||| interruptBit c }

/-- R192: clear IT1 and IT2. -/
def clearInterruptBits (s : State) : State :=
  s.setDisplay .b { s.display .b with csrr := (s.display .b).csrr &&& ~~~interruptBits }

/-- `P.tsr[7] <- 1`: the overflow flag OV0 (R173). -/
def Peripherals.setOverflow (p : Peripherals) : Peripherals := { p with tsr := putField p.tsr 7 (1 : BitVec 1) }

/-- R175: write 1 to clear. No write sets a bit. -/
def Peripherals.clearStatus (p : Peripherals) (ones : Byte) : Peripherals := { p with tsr := p.tsr &&& ~~~ones }

end Sys2Proof.Machine
end

