-- ==== Sys2Proof/Machine/Ops.lean ====
section
/-!
DEFINITION. The named operations over memory, registers and interrupt lines
(spec/20_memory.md R82 to R88, spec/45_dlp_register_set.md R250, spec/60_exceptions.md R343 to R353).
The block takes no exception and has none to return from (R340, R358): what stands in their place is `assertLine` and
`deassertLine`.
-/
namespace Sys2Proof.Machine

/-! ## Sparse contents in canonical form -/

/-- The value written last at `k`; `none` where nothing has been written. -/
def Memory.get {α : Type} (m : Memory α) (k : Nat) : Option α :=
  match m with
  | [] => none
  | (a, v) :: rest => if a = k then some v else Memory.get rest k

/-- Write `v` at `k`, keeping the addresses strictly rising. -/
def Memory.put {α : Type} (m : Memory α) (k : Nat) (v : α) : Memory α :=
  match m with
  | [] => [(k, v)]
  | (a, x) :: rest =>
    if k < a then (k, v) :: (a, x) :: rest
    else if a = k then (k, v) :: rest
    else (a, x) :: Memory.put rest k v

/-- Every address is at least `lo` and below `bound`, and they rise strictly. -/
def Memory.wfFrom {α : Type} (lo bound : Nat) (m : Memory α) : Bool :=
  match m with
  | [] => true
  | (a, _) :: rest => decide (lo ≤ a) && decide (a < bound) && Memory.wfFrom (a + 1) bound rest

/-- The canonical form: strictly rising addresses below `bound`. An unlisted address holds no written value, so no entry
can equal one. -/
def Memory.wf {α : Type} (bound : Nat) (m : Memory α) : Bool := Memory.wfFrom 0 bound m

/-! ## Plane memory (R80 to R88) -/

/-- The written contents of channel `c`'s plane. -/
def State.plane (s : State) (c : Channel) : Plane :=
  match c with
  | .a => s.planeA
  | .b => s.planeB

/-- Replace the written contents of channel `c`'s plane. -/
def State.setPlane (s : State) (c : Channel) (p : Plane) : State :=
  { s with
    planeA := match c with | .a => p | .b => s.planeA
    planeB := match c with | .a => s.planeB | .b => p }

/-- A stored plane byte: what was last written, else the byte's unspecified contents since reset (R70). -/
def storedByte (s : State) (c : Channel) (a : Nat) : Byte :=
  match Memory.get (s.plane c) a with
  | some b => b
  | none => Config.resetPlane s.epoch c a

/-- `PlaneByte(c, a)` (R82). At or beyond `PLANE_BYTES` it is the free value of draw number `draw` (R84). -/
def planeByte (s : State) (c : Channel) (a draw : Nat) : Byte :=
  if a < s.config.planeBytes then storedByte s c a else Config.freeByte draw

/-- `PlaneWord(c, w)` (R83): the byte at the even address is the more significant half. -/
def planeWord (s : State) (c : Channel) (w draw : Nat) : Half :=
  planeByte s c (2 * w) draw ++ planeByte s c (2 * w + 1) (draw + 1)

/-- Store one byte. -/
def storeByte (s : State) (c : Channel) (a : Nat) (b : Byte) : State :=
  s.setPlane c (Memory.put (s.plane c) a b)

/-- A CPU store of one byte: a byte at or beyond `PLANE_BYTES` is no part of the plane (R81, 93 U21). -/
def storeInPlane (s : State) (c : Channel) (a : Nat) (b : Byte) : State :=
  if a < s.config.planeBytes then storeByte s c a b else s

/-- `PlaneWrite(c, 2w, lanes, d)` (R85): each selected lane replaces its byte. -/
def planeWrite (s : State) (c : Channel) (w : Nat) (m : Lanes) (d : Half) : State :=
  let s := if m.hasHigh then storeInPlane s c (2 * w) (highByte d) else s
  if m.hasLow then storeInPlane s c (2 * w + 1) (lowByteOf d) else s

/-- Whether a CPU access to word `w` of a plane that uses the lanes `m` has a byte inside the plane. One that has none is not
routed to the block (93 U21). -/
def planeRouted (s : State) (w : Nat) (m : Lanes) : Bool :=
  m.hasHigh && decide (2 * w < s.config.planeBytes) || m.hasLow && decide (2 * w + 1 < s.config.planeBytes)

/-- `n` more free values have been drawn (R13). -/
def drawn (s : State) (n : Nat) : State := { s with freeCount := s.freeCount + n }

/-! ## The CLUT (R40) -/

/-- `V.ch[c].clut[i]`: what was last written, else the entry's unspecified contents since reset (R70). -/
def clutEntry (s : State) (c : Channel) (i : Byte) : Pixel :=
  match Memory.get (s.display c).clut i.toNat with
  | some p => p
  | none => Config.resetClut s.epoch c i.toNat

/-- R252: the entry a slot number selects in the bank in force. -/
def DisplayChannel.clutIndex (d : DisplayChannel) (slot : BitVec 6) : Byte := d.clutBank ++ slot

/-! ## Registers written by REGISTER SET (R250) -/

/-- R250, owner `ch0` or `ch1`: a command of the other channel's stream changes nothing. -/
def writeOwned (s : State) (owner : Channel) (f : DisplayRegs → DisplayRegs) : State :=
  if s.chan = owner then { s with regs := f s.regs } else s

/-- R250, owner `own`: a command writes its own channel's copy. -/
def writeOwn (s : State) (f : DisplayChannel → DisplayChannel) : State :=
  s.setDisplay s.chan (f (s.display s.chan))

/-! ## Interrupt lines (R350 to R353) -/

/-- `Assert(n, vec)` (R351): an asserted line stays asserted and takes the new vector. -/
def assertLine (s : State) (n : IrqLine) (vec : Nat) : State :=
  { s with irq := s.irq.set n.val { level := true, vector := BitVec.ofNat 8 vec } n.isLt }

/-- `Deassert(n)` (R352): the vector keeps its last value. -/
def deassertLine (s : State) (n : IrqLine) : State :=
  { s with irq := s.irq.set n.val { level := false, vector := (s.irq[n.val]'n.isLt).vector } n.isLt }

/-- Assert the line a selector names, with vector `base + n`; selector 0 asserts nothing (R63). -/
def assertSelected (s : State) (sel : BitVec 3) (base : Nat) : State :=
  match selectLine sel with
  | none => s
  | some n => assertLine s n (base + n.number)

/-- Deassert the line a selector names; selector 0 deasserts nothing. -/
def deassertSelected (s : State) (sel : BitVec 3) : State :=
  match selectLine sel with
  | none => s
  | some n => deassertLine s n

/-! ## Log, outputs, walker registers -/

/-- `Log` (R343): the ghost trace; nothing reads it. -/
def logEvent (s : State) (e : LogEvent) : State := { s with log := s.log ++ [e] }

/-- The value a CPU read returned. -/
def returnHalf (s : State) (d : Half) : State := { s with busOut := s.busOut ++ [d] }

/-- `ip <- t` (R211): the one control transfer of the walker. -/
def setIp (s : State) (t : Nat) : State := { s with walk := { s.walk with ip := t } }

/-- `return stop = true` (R211). -/
def setStop (s : State) : State := { s with walk := { s.walk with stop := true } }

/-- `dcp_reloaded <- true` (R224). -/
def setDcpReloaded (s : State) : State := { s with walk := { s.walk with dcpReloaded := true } }

end Sys2Proof.Machine
end

