-- ==== Sys2Proof/Machine/Mcd212.lean ====
section
/-!
DEFINITION. The MCD212 register page (spec/42_mcd212_register_page.md R190 to R196), over the slot layout the configuration
holds.
-/
namespace Sys2Proof.Machine

/-- R190: `channel = 1 - (offset / 8)`. -/
def slotChannel (offset : BitVec 4) : Channel := if offset.toNat / 8 = 0 then .b else .a

/-- R190: the register at index `k = offset & 7` of the block; `none` for an unimplemented slot (R196). -/
def slotReg (c : Config) (offset : BitVec 4) : Option SlotReg := c.slotLayout.lookup (offset.toNat % 8)

/-- The register a slot reads; the status slot reads `csrr` in the low lane (R191, R192). -/
def DisplayChannel.readSlot (d : DisplayChannel) (r : SlotReg) : Half :=
  match r with
  | .status => d.csrr.setWidth 16
  | .dcr => d.dcr
  | .vsr => d.vsr
  | .ddr => d.ddr
  | .dcp => d.dcp

/-- R193, R195: the register a slot writes; the status slot writes `csrw`. -/
def DisplayChannel.writeSlot (d : DisplayChannel) (r : SlotReg) (m : Lanes) (v : Half) : DisplayChannel :=
  match r with
  | .status => { d with csrw := combine d.csrw v m }
  | .dcr => { d with dcr := combine d.dcr v m }
  | .vsr => { d with vsr := combine d.vsr v m }
  | .ddr => { d with ddr := combine d.ddr v m }
  | .dcp => { d with dcp := combine d.dcp v m }

/-- The value of `Mcd212Read(offset, m)`, whatever `m` is; 0 for an unimplemented slot (R191 to R196). -/
def mcd212Value (s : State) (offset : BitVec 4) : Half :=
  match slotReg s.config offset with
  | some r => (s.display (slotChannel offset)).readSlot r
  | none => 0

/-- R192: the effect of reading channel 1's status: IT1 and IT2 are cleared and both LIR-selected lines are dropped. -/
def acknowledgeInterrupts (s : State) : State :=
  let t := clearInterruptBits s
  deassertSelected (deassertSelected t (lirSelector t.periph.lir .a)) (lirSelector t.periph.lir .b)

/-- `Mcd212Read(offset, m)` (R191 to R196): the value is the one before any clearing. -/
def mcd212Read (s : State) (offset : BitVec 4) (m : Lanes) : State :=
  let t := returnHalf s (mcd212Value s offset)
  match slotReg s.config offset with
  | none => logEvent t .unimplementedRegister
  | some .status => if slotChannel offset = .b ∧ m.hasLow = true then acknowledgeInterrupts t else t
  | some _ => t

/-- `Mcd212Write(offset, m, d)` (R193 to R196). -/
def mcd212Write (s : State) (offset : BitVec 4) (m : Lanes) (d : Half) : State :=
  match slotReg s.config offset with
  | none => s
  | some r => s.setDisplay (slotChannel offset) ((s.display (slotChannel offset)).writeSlot r m d)

end Sys2Proof.Machine
end

