-- ==== Sys2Proof/Machine/Timer.lean ====
section
/-!
DEFINITION. The timer subsystem (spec/41_timer_subsystem.md R170 to R176): arming Timer0, its event, and the write to the
status register.
-/
namespace Sys2Proof.Machine

/-- R172: the ticks from a value of `timer0` to its overflow, 1 to 0x10000. -/
def timerCompare (t0 : Half) : Nat := 0x10000 - t0.toNat

/-- `ArmTimer0()` (R172): a pending Timer0 event is replaced. -/
def armTimer0 (s : State) : State :=
  { s with t0Armed := true, t0Due := s.now + timerCompare s.periph.t0 * s.config.timerTick }

/-- R171: the write to `timer0` arms, whatever its lanes. -/
def writeTimer0 (s : State) (m : Lanes) (d : Half) : State :=
  armTimer0 { s with periph := { s.periph with t0 := combine s.periph.t0 d m } }

/-- The Timer0 event (R173): reload, set OV0, assert the selected line, re-arm. -/
def timer0Event (s : State) : State :=
  let t := { s with periph := { s.periph with t0 := s.periph.reload }.setOverflow }
  armTimer0 (assertSelected t (picrSelector t.periph.picr1) Config.vecOnchipBase)

/-- R175: a write of `ones` to TSR clears those bits, and the line is dropped once no bit is left. -/
def writeTimerStatus (s : State) (ones : Byte) : State :=
  let t := { s with periph := s.periph.clearStatus ones }
  if t.periph.tsr = 0 then deassertSelected t (picrSelector t.periph.picr1) else t

end Sys2Proof.Machine
end

