-- ==== Sys2Proof/Machine/Periph.lean ====
section
/-!
DEFINITION. The SCC-68070 peripheral page (spec/40_peripheral_register_block.md R140 to R151): registers by name, and the
CPU's two bus operations over the layout the configuration holds.
-/
namespace Sys2Proof.Machine

/-! ## Registers by name -/

/-- The value of an 8-bit register. -/
def Peripherals.readByte (p : Peripherals) (r : ByteReg) : Byte :=
  match r with
  | .lir => p.lir
  | .i2cData => p.i2cData
  | .i2cAddress => p.i2cAddress
  | .i2cStatus => p.i2cStatus
  | .i2cControl => p.i2cControl
  | .i2cClock => p.i2cClock
  | .uartMode => p.uartMode
  | .uartStatus => p.uartStatus
  | .uartClockSelect => p.uartClockSelect
  | .uartCommand => p.uartCommand
  | .uartThr => p.uartThr
  | .uartRhr => p.uartRhr
  | .tsr => p.tsr
  | .tcr => p.tcr
  | .picr1 => p.picr1
  | .picr2 => p.picr2
  | .dmaStatus j => p.dma[j].status
  | .dmaError j => p.dma[j].error
  | .dmaDeviceControl j => p.dma[j].deviceControl
  | .dmaOperationControl j => p.dma[j].operationControl
  | .dmaSequenceControl j => p.dma[j].sequenceControl
  | .dmaChannelControl j => p.dma[j].channelControl
  | .dmaMemoryHigh j => p.dma[j].memoryAddress.extractLsb' 16 8
  | .dmaDeviceHigh j => p.dma[j].deviceAddress.extractLsb' 16 8
  | .mmuSegmentNumber i => p.mmu[i].segmentNumber

/-- The value of a 16-bit register. -/
def Peripherals.readWord (p : Peripherals) (r : WordReg) : Half :=
  match r with
  | .reload => p.reload
  | .t0 => p.t0
  | .t1 => p.t1
  | .t2 => p.t2
  | .dmaTransferCounter j => p.dma[j].transferCounter
  | .dmaMemoryLow j => p.dma[j].memoryAddress.extractLsb' 0 16
  | .dmaDeviceLow j => p.dma[j].deviceAddress.extractLsb' 0 16
  | .mmuAttr i => p.mmu[i].attr
  | .mmuLength i => p.mmu[i].length
  | .mmuBase i => p.mmu[i].base

/-- Replace DMA block `j`. -/
def Peripherals.updateDma (p : Peripherals) (j : Fin 2) (f : DmaBlock → DmaBlock) : Peripherals :=
  { p with dma := p.dma.set j.val (f p.dma[j]) j.isLt }

/-- Replace MMU descriptor `i`. -/
def Peripherals.updateMmu (p : Peripherals) (i : Fin 8) (f : MmuDescriptor → MmuDescriptor) : Peripherals :=
  { p with mmu := p.mmu.set i.val (f p.mmu[i]) i.isLt }

/-- Store an 8-bit register, with no side effect (R142). -/
def Peripherals.storeByte (p : Peripherals) (r : ByteReg) (v : Byte) : Peripherals :=
  match r with
  | .lir => { p with lir := v }
  | .i2cData => { p with i2cData := v }
  | .i2cAddress => { p with i2cAddress := v }
  | .i2cStatus => { p with i2cStatus := v }
  | .i2cControl => { p with i2cControl := v }
  | .i2cClock => { p with i2cClock := v }
  | .uartMode => { p with uartMode := v }
  | .uartStatus => { p with uartStatus := v }
  | .uartClockSelect => { p with uartClockSelect := v }
  | .uartCommand => { p with uartCommand := v }
  | .uartThr => { p with uartThr := v }
  | .uartRhr => { p with uartRhr := v }
  | .tsr => { p with tsr := v }
  | .tcr => { p with tcr := v }
  | .picr1 => { p with picr1 := v }
  | .picr2 => { p with picr2 := v }
  | .dmaStatus j => p.updateDma j fun b => { b with status := v }
  | .dmaError j => p.updateDma j fun b => { b with error := v }
  | .dmaDeviceControl j => p.updateDma j fun b => { b with deviceControl := v }
  | .dmaOperationControl j => p.updateDma j fun b => { b with operationControl := v }
  | .dmaSequenceControl j => p.updateDma j fun b => { b with sequenceControl := v }
  | .dmaChannelControl j => p.updateDma j fun b => { b with channelControl := v }
  | .dmaMemoryHigh j => p.updateDma j fun b => { b with memoryAddress := putField b.memoryAddress 16 v }
  | .dmaDeviceHigh j => p.updateDma j fun b => { b with deviceAddress := putField b.deviceAddress 16 v }
  | .mmuSegmentNumber i => p.updateMmu i fun d => { d with segmentNumber := v }

/-- Store a 16-bit register, with no side effect (R142). -/
def Peripherals.storeWord (p : Peripherals) (r : WordReg) (v : Half) : Peripherals :=
  match r with
  | .reload => { p with reload := v }
  | .t0 => { p with t0 := v }
  | .t1 => { p with t1 := v }
  | .t2 => { p with t2 := v }
  | .dmaTransferCounter j => p.updateDma j fun b => { b with transferCounter := v }
  | .dmaMemoryLow j => p.updateDma j fun b => { b with memoryAddress := putField b.memoryAddress 0 v }
  | .dmaDeviceLow j => p.updateDma j fun b => { b with deviceAddress := putField b.deviceAddress 0 v }
  | .mmuAttr i => p.updateMmu i fun d => { d with attr := v }
  | .mmuLength i => p.updateMmu i fun d => { d with length := v }
  | .mmuBase i => p.updateMmu i fun d => { d with base := v }

/-! ## Writes with their side effects (R93) -/

/-- R146: the byte written to the transmit-holding register is echoed when `UART_ECHO` is set. -/
def writeUartThr (s : State) (v : Byte) : State :=
  let t := { s with periph := s.periph.storeByte .uartThr v }
  if t.config.uartEcho then { t with uartOut := t.uartOut ++ [v] } else t

/-- A CPU write of an 8-bit register whose lane is selected. -/
def writeByteReg (s : State) (r : ByteReg) (v : Byte) : State :=
  match r with
  | .uartThr => writeUartThr s v
  | .tsr => writeTimerStatus s v
  | _ => { s with periph := s.periph.storeByte r v }

/-- A CPU write of a 16-bit register under a lane mask (R142, R171). -/
def writeWordReg (s : State) (r : WordReg) (m : Lanes) (d : Half) : State :=
  match r with
  | .t0 => writeTimer0 s m d
  | _ => { s with periph := s.periph.storeWord r (combine (s.periph.readWord r) d m) }

/-- Write a lane's register if there is one and the lane is selected. -/
def writeLane (s : State) (selected : Bool) (r : Option ByteReg) (v : Byte) : State :=
  match r with
  | some r => if selected then writeByteReg s r v else s
  | none => s

/-! ## The bus operations -/

/-- What the word at byte offset `2 * w` holds; `none` for an unimplemented offset (R143). -/
def periphWord (c : Config) (w : Nat) : Option PeriphWord := c.periphLayout.lookup (2 * w)

/-- The lane of a word: its register, or 0 where the layout leaves it empty (R141). -/
def laneValue (p : Peripherals) (r : Option ByteReg) : Byte :=
  match r with
  | some r => p.readByte r
  | none => 0

/-- The value of `PeriphRead(2w, m)`: the whole word, whatever `m` is (R141); 0 where unimplemented (R143). -/
def periphValue (s : State) (w : Nat) : Half :=
  match periphWord s.config w with
  | some (.bytes high low) => laneValue s.periph high ++ laneValue s.periph low
  | some (.word r) => s.periph.readWord r
  | none => 0

/-- `PeriphRead(2w, m)`: no side effect; an unimplemented offset is logged (R141, R143). -/
def periphRead (s : State) (w : Nat) (_m : Lanes) : State :=
  let t := returnHalf s (periphValue s w)
  match periphWord s.config w with
  | some _ => t
  | none => logEvent t .unimplementedRegister

/-- `PeriphWrite(2w, m, d)` (R142, R143, R146, R171, R175). -/
def periphWrite (s : State) (w : Nat) (m : Lanes) (d : Half) : State :=
  match periphWord s.config w with
  | some (.bytes high low) =>
    writeLane (writeLane s m.hasLow low (lowByteOf d)) m.hasHigh high (highByte d)
  | some (.word r) => writeWordReg s r m d
  | none => s

end Sys2Proof.Machine
end

