-- ==== Sys2Proof/Machine/Render.lean ====
section
/-!
DEFINITION. The scanline renderer (spec/46_scanline_renderer.md R290 to R307).
The decoders read bytes through `rd`, which takes the distance from VSR, and colours through `lut`, which takes a CLUT index.
-/
namespace Sys2Proof.Machine

/-- R291: what a file type and colour mode select. -/
inductive DisplayMode where
  | bitmap8
  | rle8
  | unimplemented
deriving DecidableEq, Repr

/-- R291: the dispatch; file type 1 decodes as 0. -/
def DisplayChannel.displayMode (d : DisplayChannel) (l : DisplayBits) : DisplayMode :=
  if d.colorMode l then .unimplemented
  else if d.fileType l = 0 ∨ d.fileType l = 1 then .bitmap8
  else if d.fileType l = 2 then .rle8
  else .unimplemented

/-! ## 8-bit bitmap (R292) -/

/-- Each of `n` bytes from distance `i` on gives two pixels. -/
def bitmapPixels (rd : Nat → Byte) (lut : Byte → Pixel) (i n : Nat) : List Pixel :=
  match n with
  | 0 => []
  | n + 1 => lut (rd i) :: lut (rd i) :: bitmapPixels rd lut (i + 1) n

/-! ## 8-bit run-length (R293 to R296) -/

/-- R293: the 7-bit CLUT index of an item's first byte. -/
def rleIndex (b : Byte) : Byte := b &&& 0x7F

/-- `RleItem` (R295) at distance `i` with `x` pixels already emitted: the pixels of the item and the distance past the
bytes it consumed. -/
def rleItem (rd : Nat → Byte) (lut : Byte → Pixel) (i x : Nat) : List Pixel × Nat :=
  let b := rd i
  let col := lut (rleIndex b)
  if b.getLsbD 7 then
    let len := (rd (i + 1)).toNat
    if len = 0 then (List.replicate (Config.linePixels - x) col, i + 2)
    else (List.replicate (min (2 * len) (Config.linePixels - x)) col, i + 2)
  else ([col, col], i + 1)

/-- R294: items until 768 pixels are out. `fuel` bounds the items; 384 always suffice, each giving at least two pixels. -/
def rlePixels (rd : Nat → Byte) (lut : Byte → Pixel) (fuel i x : Nat) : List Pixel × Nat :=
  match fuel with
  | 0 => ([], i)
  | fuel + 1 =>
    if x < Config.linePixels then
      let item := rleItem rd lut i x
      let rest := rlePixels rd lut fuel item.2 (x + item.1.length)
      (item.1 ++ rest.1, rest.2)
    else ([], i)

/-! ## Unimplemented modes (R300) -/

/-- `n` pixels that may be anything. -/
def freePixels (draw n : Nat) : List Pixel :=
  match n with
  | 0 => []
  | n + 1 => Config.freePixel draw :: freePixels (draw + 1) n

/-! ## `Render(c)` (R290) -/

/-- The bytes of channel `c`'s plane from VSR on. A read past the end of the plane is a draw of its own (R84). -/
def streamByte (s : State) (c : Channel) (i : Nat) : Byte :=
  planeByte s c ((getVsr s c).toNat + i) (s.freeCount + i)

/-- The pixels a line of channel `c` decodes to, and the number of bytes it consumes. -/
def decodeLine (s : State) (c : Channel) : List Pixel × Nat :=
  match (s.display c).displayMode s.config.bits with
  | .bitmap8 => (bitmapPixels (streamByte s c) (clutEntry s c) 0 (Config.linePixels / 2), Config.linePixels / 2)
  | .rle8 => rlePixels (streamByte s c) (clutEntry s c) (Config.linePixels / 2) 0 0
  | .unimplemented => (freePixels s.freeCount Config.linePixels, 0)

/-- The pixels of `Render(c)`. -/
def renderPixels (s : State) (c : Channel) : List Pixel := (decodeLine s c).1

/-- The state `Render(c)` leaves: VSR just past the bytes consumed (R296), or unchanged in an unimplemented mode, which is
logged (R300). -/
def renderState (s : State) (c : Channel) : State :=
  let t := drawn s Config.linePixels
  match (s.display c).displayMode s.config.bits with
  | .unimplemented => logEvent t .unimplementedMode
  | _ => setVsr t c ((getVsr s c).toNat + (decodeLine s c).2)

/-- The row of a composite table for a pair of lines. -/
def compositeRow (rows : List CompositeRow) (pxA pxB : List Pixel) : Option CompositeRow :=
  rows.find? fun r => r.pxA == pxA && r.pxB == pxB

/-- `COMPOSITE(pxA, pxB)` (R305). -/
def compose (k : Composite) (pxA pxB : List Pixel) : List Pixel :=
  match k with
  | .channelA => pxA
  | .table rows =>
    match compositeRow rows pxA pxB with
    | some r => r.out.toList
    | none => pxA

/-- R325: render channel 0, then channel 1, and append the record of line `s.line`. -/
def renderLine (s : State) : State :=
  let pxA := renderPixels s .a
  let t := renderState s .a
  let pxB := renderPixels t .b
  let u := renderState t .b
  { u with videoOut := u.videoOut ++ [⟨s.line, pxA, pxB, compose s.config.composite pxA pxB⟩] }

end Sys2Proof.Machine
end

