-- ==== Sys2Proof/Machine/Walk.lean ====
section
/-!
DEFINITION. The command walker around `Execute` (spec/43_dlp_walker_and_control_commands.md R210 to R216): starting an
invocation, fetching a command, and ending the invocation.
-/
namespace Sys2Proof.Machine

/-- R323, R326: the word offset a walk starts at. -/
def walkEntry (s : State) (c : Channel) (m : Mode) : Nat :=
  match m with
  | .ica => Config.icaStartWord
  | .dca => (getDcp s c).toNat / 2

/-- R211: the start of `Walk(c, m, ip0)`. -/
def startWalk (s : State) (c : Channel) (m : Mode) : State :=
  { s with
    walk :=
      { running := true, chan := c, mode := m, ip := walkEntry s c m, count := 0, max := (s.display c).dcaCap s.config.bits,
        dcpReloaded := false, stop := false } }

/-- R86: the command at `ip`: two words, the first one the more significant half. -/
def fetchCommand (s : State) : Command :=
  planeWord s s.chan s.walk.ip s.freeCount ++ planeWord s s.chan (s.walk.ip + 1) (s.freeCount + 2)

/-- R211: after the fetch `ip` holds the word offset of the next command and the command is counted. -/
def advance (s : State) : State :=
  { s with
    walk := { s.walk with ip := s.walk.ip + 2, count := s.walk.count + 1 }
    freeCount := s.freeCount + 4 }

/-- The command the walker runs next. -/
def nextCommand (s : State) : Instr := decode s.config.regsetMap s.walk.mode (fetchCommand s)

/-- R211, R213: the walk is over after a stopping command, or in DCA mode at the cap. -/
def walkOver (s : State) : Bool := s.walk.stop || (s.walk.mode == .dca && s.walk.count == s.walk.max)

/-- R216: the write-back of DCP at the end of a DCA invocation. -/
def writeBack (s : State) : State :=
  if s.walk.mode = .dca ∧ s.walk.dcpReloaded = false then setDcp s s.chan (2 * s.walk.ip) else s

/-- The end of an invocation: the write-back, and the walker's registers cease to exist (R48). -/
def endWalk (s : State) : State := { writeBack s with walk := Walker.idle }

end Sys2Proof.Machine
end

