-- ==== Sys2Proof/Machine/Scan.lean ====
section
/-!
DEFINITION. The scan event (spec/47_scan_timer.md R320 to R331), cut at the command boundaries of its walks: what happens
before its first command, between two of its walks, and after its last.
-/
namespace Sys2Proof.Machine

/-- R328: advance the line and re-arm the scan event. -/
def finishLine (s : State) : State :=
  { s with line := (s.line + 1) % s.config.totalLines, scanDue := s.now + s.config.linePeriod }

/-- The second channel's turn (R323, R326). -/
def walkB (s : State) (m : Mode) : State :=
  if (s.display .b).walkEnable s.config.bits m then startWalk s .b m else finishLine s

/-- The first channel's turn (R323, R326). -/
def walkA (s : State) (m : Mode) : State :=
  if (s.display .a).walkEnable s.config.bits m then startWalk s .a m else walkB s m

/-- What follows when channel `c`'s walk in mode `m` is over. -/
def afterWalk (s : State) (c : Channel) (m : Mode) : State :=
  match c with
  | .a => walkB s m
  | .b => finishLine s

/-- After each command: go on with the walk, or end it and go on with the event. -/
def afterCommand (s : State) : State :=
  if walkOver s then afterWalk (endWalk s) s.walk.chan s.walk.mode else s

/-- R327: whether the event processes its line. -/
def lineProcessed (s : State) : Bool := !s.config.honorDe || (s.display .a).displayEnable s.config.bits

/-- R321: the event up to its first command, or to its end where no walk is enabled. -/
def beginScan (s : State) : State :=
  if lineProcessed s then
    if s.line = 0 then walkA (setDisplayActive s false) .ica
    else if Config.firstActiveLine ≤ s.line then walkA (renderLine (setDisplayActive s true)) .dca
    else finishLine s
  else finishLine s

end Sys2Proof.Machine
end

