-- ==== Sys2Proof/Machine/Agents.lean ====
section
/-!
DEFINITION. The agents between two scan events (spec/00_scope.md R12, spec/60_exceptions.md R356, R357): which one moves
next, and the effect of an external event.
-/
namespace Sys2Proof.Machine

/-- R356: the virtual time of the next event of the block's own. -/
def nextEventDue (s : State) : Nat := if s.t0Armed then min s.t0Due s.scanDue else s.scanDue

/-- R356, R357: whether the block's next event is Timer0's. At one and the same time the order is free. -/
def timer0First (s : State) : Bool :=
  s.t0Armed && (decide (s.t0Due < s.scanDue) || (decide (s.t0Due = s.scanDue) && Config.freeTie s.freeCount))

/-- R95, R356: an external event goes first only if it is scheduled before the block's next event is due. -/
def externalFirst (s : State) (x : Scheduled) : Bool := decide (max s.now x.due < nextEventDue s)

/-- R380: machine reset, from outside. The configuration, virtual time, what is still to come from outside and the count of
free draws are no part of what is reset. -/
def machineReset (s : State) : State := State.resetAt s.config (s.epoch + 1) s.now s.freeCount s.agenda

/-! ## CPU accesses -/

/-- A CPU read of word `w` of a plane (R85): the whole word. A byte beyond the end is a draw (R84). -/
def readPlane (s : State) (c : Channel) (w : Nat) : Host.Outcome State Fault Refusal :=
  if planeRouted s w .both then .next (returnHalf (drawn s 2) (planeWord s c w s.freeCount)) else .refused .accessNotRouted

/-- A CPU write of word `w` of a plane (R85). -/
def writePlane (s : State) (c : Channel) (w : Nat) (m : Lanes) (d : Half) : Host.Outcome State Fault Refusal :=
  if planeRouted s w m then .next (planeWrite s c w m d) else .refused .accessNotRouted

/-! ## The address map of the CPU bus (R96) -/

/-- The spaces the CPU reaches by bus address (R80, spaces 1 to 4). -/
inductive BusRegion where
  | plane (c : Channel)
  | mcd212
  | periph
deriving DecidableEq, Repr

/-- The base of a region: one of the four OPEN parameters. -/
def regionBase (c : Config) (r : BusRegion) : Nat :=
  match r with
  | .plane .a => c.planeABase
  | .plane .b => c.planeBBase
  | .mcd212 => c.mcd212Base
  | .periph => c.periphBase

/-- The bytes of a region: a plane (R81), 16 words (R30), or the peripheral page. -/
def regionBytes (c : Config) (r : BusRegion) : Nat :=
  match r with
  | .plane _ => c.planeBytes
  | .mcd212 => 32
  | .periph => c.periphBytes

/-- Whether a bus address is that of a word of the region: inside it, at an even offset (R85, R140, R190). -/
def inRegion (c : Config) (address : Nat) (r : BusRegion) : Bool :=
  decide (regionBase c r ≤ address) && decide (address < regionBase c r + regionBytes c r)
  && decide ((address - regionBase c r) % 2 = 0)

/-- The regions that hold a word at a bus address. -/
def regionsAt (c : Config) (address : Nat) : List BusRegion :=
  [.plane .a, .plane .b, .mcd212, .periph].filter (inRegion c address)

/-- The region and word number a bus address stands for; `none` unless exactly one region holds it. -/
def route (c : Config) (address : Nat) : Option (BusRegion × Nat) :=
  match regionsAt c address with
  | [r] => some (r, (address - regionBase c r) / 2)
  | _ => none

/-- A CPU read of word `w` of a region. -/
def readRegion (s : State) (r : BusRegion) (w : Nat) (m : Lanes) : Host.Outcome State Fault Refusal :=
  match r with
  | .plane c => readPlane s c w
  | .mcd212 => .next (mcd212Read s (BitVec.ofNat 4 w) m)
  | .periph => .next (periphRead s w m)

/-- A CPU write of word `w` of a region. -/
def writeRegion (s : State) (r : BusRegion) (w : Nat) (m : Lanes) (d : Half) : Host.Outcome State Fault Refusal :=
  match r with
  | .plane c => writePlane s c w m d
  | .mcd212 => .next (mcd212Write s (BitVec.ofNat 4 w) m d)
  | .periph => .next (periphWrite s w m d)

/-- A CPU read by bus address (R96). -/
def busRead (s : State) (address : Nat) (m : Lanes) : Host.Outcome State Fault Refusal :=
  match route s.config address with
  | some (r, w) => readRegion s r w m
  | none => .refused .accessNotRouted

/-- A CPU write by bus address (R96). -/
def busWrite (s : State) (address : Nat) (m : Lanes) (d : Half) : Host.Outcome State Fault Refusal :=
  match route s.config address with
  | some (r, w) => writeRegion s r w m d
  | none => .refused .accessNotRouted

/-- The effect of an external event: one atomic CPU step (R12), or machine reset. -/
def runExternal (s : State) (e : External) : Host.Outcome State Fault Refusal :=
  match e with
  | .planeRead c w => readPlane s c w
  | .planeWrite c w m d => writePlane s c w m d
  | .busRead a m => busRead s a m
  | .busWrite a m d => busWrite s a m d
  | .mcd212Read o m => .next (mcd212Read s o m)
  | .mcd212Write o m d => .next (mcd212Write s o m d)
  | .periphRead w m => .next (periphRead s w m)
  | .periphWrite w m d => .next (periphWrite s w m d)
  | .machineReset => .next (machineReset s)

/-- The Timer0 event at its due time (R173). -/
def fireTimer0 (s : State) : State := timer0Event { drawn s 1 with now := max s.now s.t0Due }

/-- The scan event at its due time, up to its first command (R321). -/
def fireScan (s : State) : State := beginScan { drawn s 1 with now := max s.now s.scanDue }

/-- The block's own next event (R356, R357). -/
def runEvent (s : State) : State := if timer0First s then fireTimer0 s else fireScan s

/-- One step between scan events: the next agent moves (R12, R356). -/
def agentStep (s : State) : Host.Outcome State Fault Refusal :=
  match s.agenda with
  | x :: rest =>
    if externalFirst s x then runExternal { s with now := max s.now x.due, agenda := rest } x.event
    else .next (runEvent s)
  | [] => .next (runEvent s)

/-! ## Placing a command where the next step fetches it -/

/-- The walk of channel A's ICA about to fetch its first command, if no walk is in progress. -/
def ensureWalk (s : State) : State :=
  if s.walk.running then s else startWalk { s with line := 0 } .a .ica

/-- Store a command's four bytes at the walker's `ip` (R83, R86). -/
def placeCommand (s : State) (cmd : Command) : State :=
  let a := 2 * s.walk.ip
  storeByte (storeByte (storeByte (storeByte s s.chan a (commandByte cmd 0)) s.chan (a + 1) (commandByte cmd 1))
    s.chan (a + 2) (commandByte cmd 2)) s.chan (a + 3) (commandByte cmd 3)

end Sys2Proof.Machine
end

