-- ==== Sys2Proof/Machine/Control.lean ====
section
/-!
DEFINITION. The control commands (spec/43_dlp_walker_and_control_commands.md R218 to R228). When a meaning runs, `walk.ip`
already holds the word offset of the next command (R211).
-/
namespace Sys2Proof.Machine

abbrev Result := Host.Outcome State Fault Refusal

/-- STOP (R218): halt this invocation. -/
def execStop (s : State) : Result := .next (setStop s)

/-- NOP (R220): no effect. -/
def execNop (s : State) : Result := .next s

/-- RELOAD_DCP in ICA mode (R222). -/
def execReloadDcp (addr : Addr21) (s : State) : Result := .next (setDcp s s.chan addr.toNat)

/-- RELOAD_DCP in DCA mode (R223): inert, but logged. -/
def execReloadDcpInert (s : State) : Result := .next (logEvent s .reloadDcpInDca)

/-- RELOAD_DCP_STOP (R224): the write-back of R216 must not overwrite the loaded address. -/
def execReloadDcpStop (addr : Addr21) (s : State) : Result :=
  .next (setStop (setDcpReloaded (setDcp s s.chan addr.toNat)))

/-- RELOAD_ICA (R225): the jump; bit 0 of the address is lost. -/
def execReloadIca (addr : Addr21) (s : State) : Result := .next (setIp s (addr.toNat / 2))

/-- RELOAD_VSR (R226). -/
def execReloadVsr (addr : Addr21) (s : State) : Result := .next (setVsr s s.chan addr.toNat)

/-- RELOAD_VSR_STOP (R228). -/
def execReloadVsrStop (addr : Addr21) (s : State) : Result := .next (setStop (setVsr s s.chan addr.toNat))

end Sys2Proof.Machine
end

