-- ==== Sys2Proof/Machine/RegSet.lean ====
section
/-!
DEFINITION. REGISTER SET (spec/45_dlp_register_set.md R250 to R281). None of these commands stops the walk and none
depends on the mode.
-/
namespace Sys2Proof.Machine

/-- SET_CLUT (R252), owner `own`: the operand is zero-extended into the entry of the bank in force. -/
def execSetClut (slot : BitVec 6) (value : Operand) (s : State) : Result :=
  .next (writeOwn s fun d => { d with clut := Memory.put d.clut (d.clutIndex slot).toNat (value.setWidth 32) })

/-- SET_CLUT_BANK (R256), owner `own`. -/
def execSetClutBank (bank : BitVec 2) (s : State) : Result :=
  .next (writeOwn s fun d => { d with clutBank := bank })

/-- SET_RC (R266), owner `own`: the whole operand is stored. -/
def execSetRc (n : BitVec 3) (value : Operand) (s : State) : Result :=
  .next (writeOwn s fun d => { d with rc := d.rc.set n.toNat value n.isLt })

/-- SET_CURPAT (R265), owner `ch0`. -/
def execSetCurpat (index : BitVec 4) (word : Half) (s : State) : Result :=
  .next (writeOwned s .a fun r => { r with curpat := r.curpat.set index.toNat word index.isLt })

/-- REGSET_UNASSIGNED (R280): logged, and the write is dropped. -/
def execRegsetUnassigned (_reg : Byte) (s : State) : Result := .next (logEvent s .unknownRegister)

/-- SET_ICM (R253), owner `ch0`. -/
def execSetIcm (value : Operand) (s : State) : Result := .next (writeOwned s .a fun r => { r with icm := value })

/-- SET_TCR (R254), owner `ch0`. -/
def execSetTcr (value : Operand) (s : State) : Result := .next (writeOwned s .a fun r => { r with tcr := value })

/-- SET_POR (R255), owner `ch0`. -/
def execSetPor (value : Operand) (s : State) : Result := .next (writeOwned s .a fun r => { r with por := value })

/-- SET_TCA (R257), owner `ch0`. -/
def execSetTca (value : Operand) (s : State) : Result := .next (writeOwned s .a fun r => { r with tca := value })

/-- SET_TCB (R258), owner `ch1`. -/
def execSetTcb (value : Operand) (s : State) : Result := .next (writeOwned s .b fun r => { r with tcb := value })

/-- SET_MCA (R259), owner `ch0`. -/
def execSetMca (value : Operand) (s : State) : Result := .next (writeOwned s .a fun r => { r with mca := value })

/-- SET_MCB (R260), owner `ch1`. -/
def execSetMcb (value : Operand) (s : State) : Result := .next (writeOwned s .b fun r => { r with mcb := value })

/-- SET_DYUVA (R261), owner `ch0`. -/
def execSetDyuva (value : Operand) (s : State) : Result := .next (writeOwned s .a fun r => { r with dyuva := value })

/-- SET_DYUVB (R262), owner `ch1`. -/
def execSetDyuvb (value : Operand) (s : State) : Result := .next (writeOwned s .b fun r => { r with dyuvb := value })

/-- SET_CURPOS (R263), owner `ch0`. -/
def execSetCurpos (value : Operand) (s : State) : Result := .next (writeOwned s .a fun r => { r with curpos := value })

/-- SET_CURCNT (R264), owner `ch0`. -/
def execSetCurcnt (value : Operand) (s : State) : Result := .next (writeOwned s .a fun r => { r with curcnt := value })

/-- SET_BACKDROP (R267), owner `ch0`. -/
def execSetBackdrop (value : Operand) (s : State) : Result := .next (writeOwned s .a fun r => { r with backdrop := value })

/-- SET_MHA (R268), owner `ch0`. -/
def execSetMha (value : Operand) (s : State) : Result := .next (writeOwned s .a fun r => { r with mha := value })

/-- SET_MHB (R269), owner `ch1`. -/
def execSetMhb (value : Operand) (s : State) : Result := .next (writeOwned s .b fun r => { r with mhb := value })

/-- SET_WFA (R270), owner `ch0`. -/
def execSetWfa (value : Operand) (s : State) : Result := .next (writeOwned s .a fun r => { r with wfa := value })

/-- SET_WFB (R271), owner `ch1`. -/
def execSetWfb (value : Operand) (s : State) : Result := .next (writeOwned s .b fun r => { r with wfb := value })

end Sys2Proof.Machine
end

