-- ==== Sys2Proof/Machine/System.lean ====
section
/-!
DEFINITION. INTERRUPT and RELOAD_DISPLAY_PARAMETERS (spec/44_dlp_interrupt_and_display_parameters.md R240 to R245).
-/
namespace Sys2Proof.Machine

/-- R240, R241: the status bit is set first, and the line is asserted if IT1 or IT2 is then set. -/
def raiseInterrupt (s : State) : State :=
  let t := setInterruptBit s s.chan
  if (t.display .b).csrr &&& interruptBits != 0 then
    assertSelected t (lirSelector t.periph.lir s.chan) (vectorBase s.walk.mode)
  else t

/-- INTERRUPT (R240). -/
def execInterrupt (s : State) : Result := .next (raiseInterrupt s)

/-- RELOAD_DISPLAY_PARAMETERS (R245). -/
def execReloadDisplayParameters (cm : Bool) (dp : BitVec 4) (s : State) : Result :=
  .next (writeOwn s fun d => d.setParameters s.config.bits cm dp)

end Sys2Proof.Machine
end

