-- ==== Sys2Proof/Machine/Dispatch.lean ====
section
/-!
DEFINITION. The dispatch of the commands: one arm per constructor (spec/30_encoding.md R114).
-/
namespace Sys2Proof.Machine

def exec (i : Instr) (s : State) : Host.Outcome State Fault Refusal :=
  match i with
  | .stop => Sys2Proof.Machine.execStop s
  | .nop => Sys2Proof.Machine.execNop s
  | .reloadDcp addr => Sys2Proof.Machine.execReloadDcp addr s
  | .reloadDcpInert => Sys2Proof.Machine.execReloadDcpInert s
  | .reloadDcpStop addr => Sys2Proof.Machine.execReloadDcpStop addr s
  | .reloadIca addr => Sys2Proof.Machine.execReloadIca addr s
  | .reloadVsr addr => Sys2Proof.Machine.execReloadVsr addr s
  | .reloadVsrStop addr => Sys2Proof.Machine.execReloadVsrStop addr s
  | .interrupt => Sys2Proof.Machine.execInterrupt s
  | .regsetUnassigned reg => Sys2Proof.Machine.execRegsetUnassigned reg s
  | .reloadDisplayParameters cm dp => Sys2Proof.Machine.execReloadDisplayParameters cm dp s
  | .setClut slot value => Sys2Proof.Machine.execSetClut slot value s
  | .setIcm value => Sys2Proof.Machine.execSetIcm value s
  | .setTcr value => Sys2Proof.Machine.execSetTcr value s
  | .setPor value => Sys2Proof.Machine.execSetPor value s
  | .setClutBank bank => Sys2Proof.Machine.execSetClutBank bank s
  | .setTca value => Sys2Proof.Machine.execSetTca value s
  | .setTcb value => Sys2Proof.Machine.execSetTcb value s
  | .setMca value => Sys2Proof.Machine.execSetMca value s
  | .setMcb value => Sys2Proof.Machine.execSetMcb value s
  | .setDyuva value => Sys2Proof.Machine.execSetDyuva value s
  | .setDyuvb value => Sys2Proof.Machine.execSetDyuvb value s
  | .setCurpos value => Sys2Proof.Machine.execSetCurpos value s
  | .setCurcnt value => Sys2Proof.Machine.execSetCurcnt value s
  | .setCurpat index word => Sys2Proof.Machine.execSetCurpat index word s
  | .setRc n value => Sys2Proof.Machine.execSetRc n value s
  | .setBackdrop value => Sys2Proof.Machine.execSetBackdrop value s
  | .setMha value => Sys2Proof.Machine.execSetMha value s
  | .setMhb value => Sys2Proof.Machine.execSetMhb value s
  | .setWfa value => Sys2Proof.Machine.execSetWfa value s
  | .setWfb value => Sys2Proof.Machine.execSetWfb value s

end Sys2Proof.Machine
end

