-- ==== Sys2Proof/Machine/Step.lean ====
section
/-!
DEFINITION. One step of the machine: inside a scan event's walk, one command (spec/43_dlp_walker_and_control_commands.md
R211); between scan events, one agent's move (spec/60_exceptions.md R356).
-/
namespace Sys2Proof.Machine

/-- One command of the walk in progress, with what the walker adds around it. -/
def commandStep (s : State) : Host.Outcome State Fault Refusal :=
  match exec (nextCommand s) (advance s) with
  | .next t => .next (afterCommand t)
  | .fault f => .fault f
  | .refused r => .refused r

def step (s : State) : Host.Outcome State Fault Refusal :=
  if s.walk.running then commandStep s else agentStep s

/-- `s` with a command word stored where the next step fetches it. Where no walk is in progress, channel A's ICA walk is
put at its first command (log entry 10). -/
def State.withFetchWord (s : State) (nbits w : Nat) : State :=
  placeCommand (ensureWalk s) (BitVec.ofNat 32 (w % 2 ^ nbits))

end Sys2Proof.Machine
end

