-- ==== Sys2Proof/Machine/Event.lean ====
section
/-!
DEFINITION. Whole scan events: as runs of `step`, and as the spec writes them (spec/43_dlp_walker_and_control_commands.md
R211, spec/47_scan_timer.md R321). A walk that never stops has no result under any fuel: that is the hang of R215.
-/
namespace Sys2Proof.Machine

/-! ## As runs of `step` -/

/-- Step until no walk is in progress; `none` if that does not happen within `fuel` steps. -/
def settle (fuel : Nat) (s : State) : Option State :=
  match fuel with
  | 0 => if s.walk.running then none else some s
  | fuel + 1 =>
    if s.walk.running then
      match step s with
      | .next t => settle fuel t
      | _ => none
    else some s

/-- R345: from here the scan event never completes. -/
def hangs (s : State) : Prop := ∀ fuel, settle fuel s = none

/-! ## As the spec writes them -/

/-- The loop of `Walk` (R211): fetch, execute, and leave it after a stopping command or at the cap. -/
def walkLoop (fuel : Nat) (s : State) : Option State :=
  match fuel with
  | 0 => none
  | fuel + 1 =>
    match exec (nextCommand s) (advance s) with
    | .next t => if walkOver t then some t else walkLoop fuel t
    | _ => none

/-- `Walk(c, m, ip0)` (R211), with the write-back of R216. -/
def walk (fuel : Nat) (s : State) (c : Channel) (m : Mode) : Option State :=
  (walkLoop fuel (startWalk s c m)).map endWalk

/-- "for each channel whose DCR has the enable bit set" (R323, R326). -/
def walkIfEnabled (fuel : Nat) (s : State) (c : Channel) (m : Mode) : Option State :=
  if (s.display c).walkEnable s.config.bits m then walk fuel s c m else some s

/-- Both channels in turn, channel 0 first (R323, R326). -/
def walkBoth (fuel : Nat) (s : State) (m : Mode) : Option State :=
  (walkIfEnabled fuel s .a m).bind fun t => walkIfEnabled fuel t .b m

/-- `ScanEvent()` (R321), each ICA and DCA walk under `fuel`. -/
def scanEvent (fuel : Nat) (s : State) : Option State :=
  let processed :=
    if lineProcessed s then
      if s.line = 0 then walkBoth fuel (setDisplayActive s false) .ica
      else if Config.firstActiveLine ≤ s.line then walkBoth fuel (renderLine (setDisplayActive s true)) .dca
      else some s
    else some s
  processed.map finishLine

end Sys2Proof.Machine
end

