-- ==== Sys2Proof/Safety.lean ====
section
/-!
DEFINITION. The terms the claims about the block are stated in: what every state of a run satisfies, what no command
touches, and what is seen of a state once its diagnostic log is left out.
-/
namespace Sys2Proof.Machine

/-! ## Invariants of the machine -/

/-- Planes and CLUTs are in canonical form, within PLANE_BYTES and 256 entries (20 R81, 10 R40). -/
def memoryCanonical (s : State) : Prop :=
  Memory.wf s.config.planeBytes s.planeA = true ∧ Memory.wf s.config.planeBytes s.planeB = true
  ∧ Memory.wf 256 s.chA.clut = true ∧ Memory.wf 256 s.chB.clut = true

/-- A written CLUT entry holds a zero-extended 24-bit operand (30 R113). -/
def clutZeroExtended (s : State) : Prop :=
  ∀ c, ∀ e ∈ (s.display c).clut, (e.2.extractLsb' 24 8 : Byte) = 0

/-- Only DA, IT1, IT2 and OV0 are ever set in the status registers (10 R31, R55). -/
def statusFlagsOnly (s : State) : Prop :=
  (∀ i : Fin 8, i ≠ s.config.bits.da → s.chA.csrr.getLsbD i.val = false)
  ∧ s.chB.csrr &&& 0xF9 = 0 ∧ s.periph.tsr &&& 0x7F = 0

/-- The line number is one of the frame's (10 R60). -/
def lineInFrame (s : State) : Prop := s.line < s.config.totalLines

/-- The walker's registers: none outside an invocation (10 R48); inside one, a walk in ICA mode is line 0's and a walk in
DCA mode is an active line's and still below its cap (47 R321, 43 R213). -/
def walkerShape (s : State) : Prop :=
  (s.walk.running = false → s.walk = Walker.idle)
  ∧ (s.walk.running = true →
      s.walk.stop = false ∧ s.walk.dcpReloaded = false
      ∧ (s.walk.mode = .ica → s.line = 0)
      ∧ (s.walk.mode = .dca →
          Config.firstActiveLine ≤ s.line ∧ s.walk.count < s.walk.max
          ∧ (s.walk.max = Config.dcaMaxCm0 ∨ s.walk.max = Config.dcaMaxCm1)))

/-- An asserted line carries one of the vectors the block's sources give it (60 R354). -/
def vectorsLegal (s : State) : Prop :=
  ∀ n : IrqLine, (s.irq[n]).level = true →
    (s.irq[n]).vector = BitVec.ofNat 8 (Config.vecOnchipBase + n.number)
    ∨ (s.irq[n]).vector = BitVec.ofNat 8 (Config.vecAutoBase + n.number)

/-- No pending event is overdue: virtual time has not passed it (60 R356). -/
def eventsPending (s : State) : Prop := s.now ≤ s.scanDue ∧ (s.t0Armed = true → s.now ≤ s.t0Due)

/-- Every record of the video output is of a rendered line and holds 768 pixels of each channel and 768
of their composite (47 R325, 46 R305). -/
def recordsWhole (s : State) : Prop :=
  ∀ r ∈ s.videoOut, Config.firstActiveLine ≤ r.line ∧ r.line < s.config.totalLines
    ∧ r.pxA.length = Config.linePixels ∧ r.pxB.length = Config.linePixels
    ∧ r.out.length = Config.linePixels
    ∧ r.out = compose s.config.composite r.pxA r.pxB

/-- What every state of a run satisfies. -/
structure Inv (s : State) : Prop where
  memory : memoryCanonical s
  clut : clutZeroExtended s
  flags : statusFlagsOnly s
  line : lineInFrame s
  walker : walkerShape s
  vectors : vectorsLegal s
  pending : eventsPending s
  records : recordsWhole s

/-! ## What no command touches (43 R217) -/

/-- `t` differs from `s` only in what some command can change: the per-channel and single display registers, the interrupt
lines, the walker's registers and the log. Every byte of both planes reads as before. -/
def outsideCommands (s t : State) : Prop :=
  t.config = s.config ∧ t.periph = s.periph ∧ t.line = s.line ∧ t.now = s.now ∧ t.scanDue = s.scanDue
  ∧ t.t0Armed = s.t0Armed ∧ t.t0Due = s.t0Due ∧ t.videoOut = s.videoOut ∧ t.uartOut = s.uartOut
  ∧ t.agenda = s.agenda ∧ t.busOut = s.busOut ∧ t.freeCount = s.freeCount ∧ t.epoch = s.epoch
  ∧ ∀ c a draw, planeByte t c a draw = planeByte s c a draw

/-- Nothing but the walker's registers and the log can differ. -/
def onlyWalkAndLog (s t : State) : Prop :=
  outsideCommands s t ∧ t.chA = s.chA ∧ t.chB = s.chB ∧ t.regs = s.regs ∧ t.irq = s.irq

/-- Nothing but channel `c`'s own registers and the walker's registers can differ. -/
def onlyChannel (c : Channel) (s t : State) : Prop :=
  outsideCommands s t ∧ (∀ e, e ≠ c → t.display e = s.display e) ∧ t.regs = s.regs ∧ t.irq = s.irq ∧ t.log = s.log

/-- Nothing but the single display registers can differ. -/
def onlyRegs (s t : State) : Prop :=
  outsideCommands s t ∧ t.chA = s.chA ∧ t.chB = s.chB ∧ t.irq = s.irq ∧ t.walk = s.walk ∧ t.log = s.log

/-! ## REGISTER SET and plane writes, by name -/

/-- The REGISTER SET commands that name a register (45 R250). -/
def isRegisterSet (i : Instr) : Bool :=
  match i with
  | .setClut _ _ | .setIcm _ | .setTcr _ | .setPor _ | .setClutBank _ | .setTca _ | .setTcb _ | .setMca _ | .setMcb _
  | .setDyuva _ | .setDyuvb _ | .setCurpos _ | .setCurcnt _ | .setCurpat _ _ | .setRc _ _ | .setBackdrop _ | .setMha _
  | .setMhb _ | .setWfa _ | .setWfb _ => true
  | .stop | .nop | .reloadDcp _ | .reloadDcpInert | .reloadDcpStop _ | .reloadIca _ | .reloadVsr _ | .reloadVsrStop _
  | .interrupt | .regsetUnassigned _ | .reloadDisplayParameters _ _ => false

/-- Whether an external event is a CPU write of plane memory, by plane or by bus address (20 R85, R96). -/
def writesPlane (c : Config) (e : External) : Bool :=
  match e with
  | .planeWrite _ _ _ _ => true
  | .busWrite a _ _ =>
    match route c a with
    | some (.plane _, _) => true
    | _ => false
  | .planeRead _ _ | .mcd212Read _ _ | .mcd212Write _ _ _ | .periphRead _ _ | .periphWrite _ _ _ | .busRead _ _
  | .machineReset => false

/-! ## Run-length lines as the spec writes them (46 R294) -/

/-- From distance `i` with `x` pixels out: items one after another, each by the rule of one item (R295), until 768 pixels are
out; `px` are their pixels in order and `j` is the distance past the last byte consumed. -/
inductive RunLengthItems (rd : Nat → Byte) (lut : Byte → Pixel) : (i x : Nat) → (px : List Pixel) → (j : Nat) → Prop where
  | full (i : Nat) : RunLengthItems rd lut i 768 [] i
  | item (i x j : Nat) (px : List Pixel) (h : x < 768)
      (rest : RunLengthItems rd lut (rleItem rd lut i x).2 (x + (rleItem rd lut i x).1.length) px j) :
      RunLengthItems rd lut i x ((rleItem rd lut i x).1 ++ px) j

/-! ## The log is not state (60 R343) -/

/-- A state without its diagnostic log. -/
def withoutLog (s : State) : State := { s with log := [] }

/-- An outcome seen without the log. -/
def outcomeWithoutLog (r : Host.Outcome State Fault Refusal) : Host.Outcome State Fault Refusal :=
  match r with
  | .next t => .next (withoutLog t)
  | .fault f => .fault f
  | .refused r => .refused r

end Sys2Proof.Machine
end

