-- ==== Sys2Proof/Certificates/Slice0/Obligations.lean ====
section
/-!
DEFINITION. The statements for the provers. Rules are cited by their section file (43 R218 is spec/43_..., rule R218).
A statement that rests on a decision of the spec (92) or on a choice of the model says so.
-/
open Sys2Proof Sys2Proof.Machine

/-! ## Encoding -/

/-- 30 R111 to R120: every well-formed command a mode has is read back from its canonical word, operand by operand. The
register numbers are the spec's default table (92 D15). -/
def Obligations.DecodeOfEncodeIsTheCommand : Prop :=
  ∀ (m : Mode) (i : Instr), i.wellFormed = true → i.validIn m = true → decode RegsetMap.default m (encode i) = i

/-- 30 R116, 45 R280: the decoder answers only commands the language has in the mode asked for. -/
def Obligations.DecodedCommandsAreWellFormed : Prop :=
  ∀ (m : Mode) (w : Command),
    (decode RegsetMap.default m w).wellFormed = true ∧ (decode RegsetMap.default m w).validIn m = true

/-- 30 R111, R112, R120: encoding what a word decodes to gives the word back with its insignificant bits cleared, and a word that
agrees with it on the significant bits is the same command, whatever its ignored bits hold. -/
def Obligations.OnlySignificantBitsMatter : Prop :=
  ∀ (m : Mode) (v w : Command),
    encode (decode RegsetMap.default m v) = v &&& significantMask (decode RegsetMap.default m v)
    ∧ (w &&& significantMask (decode RegsetMap.default m v) = v &&& significantMask (decode RegsetMap.default m v) →
      decode RegsetMap.default m w = decode RegsetMap.default m v)

/-- 30 R114: in each mode exactly one row of the opcode table covers a word, and it names the command decoded. -/
def Obligations.OpcodeTableRowsPartitionTheWords : Prop :=
  ∀ (m : Mode) (w : Command),
    (opcodeTable.filter fun r => r.covers m w).map (fun r => r.mnemonic) = [(decode RegsetMap.default m w).mnemonic]

/-- 30 R112: below 0x70 the high nibble alone selects the operation; in 0x78 to 0x7F bits 2:0 are insignificant; elsewhere
all eight bits are a register number, and different numbers are different commands. -/
def Obligations.OpcodeBitsThatAreSignificant : Prop :=
  ∀ (m : Mode) (p q : Byte) (x : Operand),
    (p.toNat < 0x70 → q.toNat / 16 = p.toNat / 16 →
      decode RegsetMap.default m (mkCommand q x) = decode RegsetMap.default m (mkCommand p x))
    ∧ (p.toNat / 8 = 0x0F → q.toNat / 8 = 0x0F →
      decode RegsetMap.default m (mkCommand q x) = decode RegsetMap.default m (mkCommand p x))
    ∧ (0x70 ≤ p.toNat → p.toNat / 8 ≠ 0x0F → 0x70 ≤ q.toNat → q.toNat / 8 ≠ 0x0F → p ≠ q →
      decode RegsetMap.default m (mkCommand q x) ≠ decode RegsetMap.default m (mkCommand p x))

/-- 30 R116, 44 R240: under any register numbering the mode changes the command of a word exactly for opcode nibbles 2 and 4. It
changes the effect of no command but INTERRUPT, and of INTERRUPT exactly the vector of the line asserted, not its level: 56 + n in ICA
mode, 24 + n in DCA mode. (What the mode changes in the walk around the commands, the cap and the write-back of 60 R360, is not said here.) -/
def Obligations.ModeChangesTwoNibblesAndInterrupt : Prop :=
  (∀ (map : List (Byte × RegName)) (w : Command),
    decode map .ica w ≠ decode map .dca w ↔ (cmdOpcode w).toNat / 16 = 2 ∨ (cmdOpcode w).toNat / 16 = 4)
  ∧ (∀ (i : Instr) (s t u : State), i ≠ .interrupt →
    exec i { s with walk := { s.walk with mode := .ica } } = .next t →
    exec i { s with walk := { s.walk with mode := .dca } } = .next u →
    u = { t with walk := { t.walk with mode := .dca } })
  ∧ ∀ s t u : State,
    exec .interrupt { s with walk := { s.walk with mode := .ica } } = .next t →
    exec .interrupt { s with walk := { s.walk with mode := .dca } } = .next u →
    u = { t with walk := { t.walk with mode := .dca }, irq := u.irq }
    ∧ (∀ n : IrqLine, n.number = (lirSelector s.periph.lir s.chan).toNat →
      (t.irq[n]).vector.toNat = 56 + n.number ∧ (u.irq[n]).vector.toNat = 24 + n.number)
    ∧ (∀ n : IrqLine, (u.irq[n]).level = (t.irq[n]).level)
    ∧ ∀ n : IrqLine, n.number ≠ (lirSelector s.periph.lir s.chan).toNat → u.irq[n] = t.irq[n]

/-- 30 R110, R114: a few words, written out from their encodings. -/
def Obligations.WrittenOutWordsDecode : Prop :=
  decode RegsetMap.default .ica 0x0FFFFFFF = .stop ∧ decode RegsetMap.default .ica 0x2FE01000 = .reloadDcp 0x1000
  ∧ decode RegsetMap.default .dca 0x40000801 = .reloadVsr 0x801 ∧ decode RegsetMap.default .ica 0x6F123456 = .interrupt
  ∧ decode RegsetMap.default .ica 0x7FFFFFE5 = .reloadDisplayParameters false 5
  ∧ decode RegsetMap.default .dca 0xBF000001 = .setClut 63 1 ∧ decode RegsetMap.default .ica 0xC3FFFFFE = .setClutBank 2
  ∧ decode RegsetMap.default .ica 0xCFF3F00F = .setCurpat 3 0xF00F
  ∧ decode RegsetMap.default .dca 0xFFFFFFFF = .regsetUnassigned 0xFF

/-- 30 R117: there is no illegal encoding and no trap. Whatever the numbering, the mode, the word and the state, the command
decoded has a next state. -/
def Obligations.EveryWordHasANextState : Prop :=
  ∀ (map : List (Byte × RegName)) (m : Mode) (w : Command) (s : State), ∃ t, exec (decode map m w) s = .next t

/-! ## A step runs the decoded command -/

/-- 43 R211, 20 R86: inside a walk, a step decodes the four bytes at `ip` (most significant first), runs that command on the
state whose `ip` is past it and whose count is one more, and then goes on with the walk or, after a stopping command or at the
cap, with the event. The four draws of free values are the model's form of out-of-range reads (log entry 1). -/
def Obligations.StepRunsTheDecodedCommand : Prop :=
  ∀ (s t : State) (i : Instr), s.walk.running = true →
    decode s.config.regsetMap s.walk.mode
      (joinCommand (planeByte s s.chan (2 * s.walk.ip) s.freeCount)
        (planeByte s s.chan (2 * s.walk.ip + 1) (s.freeCount + 1))
        (planeByte s s.chan (2 * s.walk.ip + 2) (s.freeCount + 2))
        (planeByte s s.chan (2 * s.walk.ip + 3) (s.freeCount + 3))) = i →
    exec i { s with
      walk := { s.walk with ip := s.walk.ip + 2, count := s.walk.count + 1 }
      freeCount := s.freeCount + 4 } = .next t →
    step s = .next
      (if t.walk.stop = true ∨ (t.walk.mode = .dca ∧ t.walk.count = t.walk.max)
        then afterWalk (endWalk t) t.walk.chan t.walk.mode else t)

/-- 20 R83, R86: a command stored in memory order at the walker's `ip` is the command the next step fetches, and storing it
changes no byte outside its four. -/
def Obligations.PlacedCommandIsFetched : Prop :=
  ∀ (s : State) (w : Command), 2 * s.walk.ip + 3 < s.config.planeBytes →
    fetchCommand (placeCommand s w) = w
    ∧ ∀ c a draw, (c ≠ s.chan ∨ a < 2 * s.walk.ip ∨ 2 * s.walk.ip + 3 < a) →
      planeByte (placeCommand s w) c a draw = planeByte s c a draw

/-! ## Control commands -/

/-- 43 R218, R220: STOP is every word whose top nibble is 0 and NOP every word whose top nibble is 1, in both modes. STOP halts the
invocation and writes no other state: the step that runs it is the end of the walk. NOP has no effect, and the step that runs it
advances `ip` by 2 and counts one toward the cap. -/
def Obligations.StopHaltsAndNopHasNoEffect : Prop :=
  (∀ (map : List (Byte × RegName)) (m : Mode) (w : Command),
    (w &&& 0xF0000000 = 0 → decode map m w = .stop) ∧ (w &&& 0xF0000000 = 0x10000000 → decode map m w = .nop))
  ∧ (∀ s : State, ∃ t, exec .stop s = .next t ∧ onlyWalkAndLog s t ∧ t.log = s.log
      ∧ t.walk = { s.walk with stop := true })
  ∧ (∀ s : State, s.walk.running = true → nextCommand s = .stop →
      step s = .next (afterWalk (endWalk (setStop (advance s))) s.walk.chan s.walk.mode))
  ∧ (∀ s : State, exec .nop s = .next s)
  ∧ ∀ s : State, s.walk.running = true → nextCommand s = .nop → s.walk.stop = false →
      (s.walk.mode = .ica ∨ s.walk.count + 1 ≠ s.walk.max) →
      ∃ t k, step s = .next t ∧ onlyWalkAndLog { s with freeCount := k } t ∧ t.log = s.log
        ∧ t.walk = { s.walk with ip := s.walk.ip + 2, count := s.walk.count + 1 }

/-- 43 R223: in DCA mode every word whose top nibble is 2 is inert: it is logged and no register changes, and the
step that runs it goes on with the next word and counts one toward the cap. -/
def Obligations.ReloadDcpInDcaIsInert : Prop :=
  (∀ (map : List (Byte × RegName)) (w : Command), w &&& 0xF0000000 = 0x20000000 → decode map .dca w = .reloadDcpInert)
  ∧ (∀ s : State, ∃ t, exec .reloadDcpInert s = .next t ∧ onlyWalkAndLog s t ∧ t.walk = s.walk
      ∧ t.log = s.log ++ [.reloadDcpInDca])
  ∧ ∀ s : State, s.walk.running = true → s.walk.mode = .dca → nextCommand s = .reloadDcpInert → s.walk.stop = false →
      s.walk.count + 1 ≠ s.walk.max →
      ∃ t k, step s = .next t ∧ onlyWalkAndLog { s with freeCount := k } t
        ∧ t.log = s.log ++ [.reloadDcpInDca] ∧ t.walk = { s.walk with ip := s.walk.ip + 2, count := s.walk.count + 1 }

/-- 43 R222, R224: RELOAD_DCP and RELOAD_DCP_STOP load the issuing channel's DCP with the 21-bit address and keep DDR's other
bits; the second also halts and marks DCP as reloaded. The address width is the spec's decision (92 D4); the place of the high field
is a parameter (92 D6). -/
def Obligations.ReloadDcpLoadsTheAddress : Prop :=
  ∀ (s : State) (addr : Addr21),
    (∃ t, exec (.reloadDcp addr) s = .next t ∧ onlyChannel s.chan s t ∧ t.walk = s.walk
      ∧ (getDcp t s.chan).toNat = addr.toNat
      ∧ t.display s.chan
        = { s.display s.chan with dcp := (t.display s.chan).dcp, ddr := (t.display s.chan).ddr }
      ∧ ∀ i, i < 16 → inField s.config.bits.dcpHigh.val 6 i = false →
        (t.display s.chan).ddr.getLsbD i = (s.display s.chan).ddr.getLsbD i)
    ∧ (∃ t, exec (.reloadDcpStop addr) s = .next t ∧ onlyChannel s.chan s t
      ∧ t.walk = { s.walk with stop := true, dcpReloaded := true }
      ∧ (getDcp t s.chan).toNat = addr.toNat
      ∧ t.display s.chan
        = { s.display s.chan with dcp := (t.display s.chan).dcp, ddr := (t.display s.chan).ddr }
      ∧ ∀ i, i < 16 → inField s.config.bits.dcpHigh.val 6 i = false →
        (t.display s.chan).ddr.getLsbD i = (s.display s.chan).ddr.getLsbD i)

/-- 43 R225: RELOAD_ICA moves `ip` to the word offset of the address, an odd address losing its bit 0, and writes nothing
else. Bits 23:21 of the operand are not part of the address (92 D4, D5). -/
def Obligations.ReloadIcaJumps : Prop :=
  ∀ (s : State) (addr : Addr21), ∃ t, exec (.reloadIca addr) s = .next t ∧ onlyWalkAndLog s t ∧ t.log = s.log
    ∧ t.walk = { s.walk with ip := addr.toNat / 2 }

/-- 43 R226, R228: RELOAD_VSR and RELOAD_VSR_STOP load the issuing channel's VSR with the 21-bit address and keep DCR's other
bits; the second also halts. The address width is the spec's decision (92 D4); the place of the high field is a parameter (92 D6).
-/
def Obligations.ReloadVsrLoadsTheAddress : Prop :=
  ∀ (s : State) (addr : Addr21),
    (∃ t, exec (.reloadVsr addr) s = .next t ∧ onlyChannel s.chan s t ∧ t.walk = s.walk
      ∧ (getVsr t s.chan).toNat = addr.toNat
      ∧ t.display s.chan
        = { s.display s.chan with vsr := (t.display s.chan).vsr, dcr := (t.display s.chan).dcr }
      ∧ ∀ i, i < 16 → inField s.config.bits.vsrHigh.val 6 i = false →
        (t.display s.chan).dcr.getLsbD i = (s.display s.chan).dcr.getLsbD i)
    ∧ (∃ t, exec (.reloadVsrStop addr) s = .next t ∧ onlyChannel s.chan s t
      ∧ t.walk = { s.walk with stop := true }
      ∧ (getVsr t s.chan).toNat = addr.toNat
      ∧ t.display s.chan
        = { s.display s.chan with vsr := (t.display s.chan).vsr, dcr := (t.display s.chan).dcr }
      ∧ ∀ i, i < 16 → inField s.config.bits.vsrHigh.val 6 i = false →
        (t.display s.chan).dcr.getLsbD i = (s.display s.chan).dcr.getLsbD i)

/-! ## INTERRUPT and RELOAD_DISPLAY_PARAMETERS -/

/-- 44 R240 to R242: INTERRUPT sets the issuing channel's bit of channel 1's status register and asserts the line its LIR field
names, with vector 56 + n in ICA mode and 24 + n in DCA mode; field 0 asserts nothing. Every other register, bit and line is as
before. The LIR fields are the spec's decision (92 D13), and so is that the interrupt is always enabled (92 D12). -/
def Obligations.InterruptSetsStatusAndAssertsItsLine : Prop :=
  ∀ s : State, ∃ t, exec .interrupt s = .next t ∧ outsideCommands s t ∧ t.chA = s.chA ∧ t.regs = s.regs
    ∧ t.walk = s.walk ∧ t.log = s.log
    ∧ t.chB = { s.chB with csrr := s.chB.csrr ||| (match s.chan with | .a => 0x04 | .b => 0x02) }
    ∧ ∀ n : IrqLine,
      let sel : BitVec 3 :=
        match s.chan with | .a => s.periph.lir.extractLsb' 4 3 | .b => s.periph.lir.extractLsb' 0 3
      let base := match s.walk.mode with | .ica => 56 | .dca => 24
      if n.number = sel.toNat then t.irq[n] = ⟨true, BitVec.ofNat 8 (base + n.number)⟩ else t.irq[n] = s.irq[n]

/-- 44 R245: RELOAD_DISPLAY_PARAMETERS sets the parameter nibble of DDR and the colour mode of DCR of the issuing channel, `ddr[11:8]`
and `dcr[11]` in the default layout, and no other bit. The places are parameters with the spec's defaults (92 D7, D8); which operand
bit goes where is the spec's decision (92 D9). -/
def Obligations.DisplayParametersSetFiveBits : Prop :=
  (∀ (s : State) (cm : Bool) (dp : BitVec 4),
    ∃ t, exec (.reloadDisplayParameters cm dp) s = .next t ∧ onlyChannel s.chan s t ∧ t.walk = s.walk
      ∧ t.display s.chan
        = { s.display s.chan with dcr := (t.display s.chan).dcr, ddr := (t.display s.chan).ddr }
      ∧ (t.display s.chan).ddr.extractLsb' s.config.bits.dp.val 4 = dp
      ∧ (∀ i, i < 16 → inField s.config.bits.dp.val 4 i = false →
          (t.display s.chan).ddr.getLsbD i = (s.display s.chan).ddr.getLsbD i)
      ∧ (t.display s.chan).dcr.getLsbD s.config.bits.cm.val = cm
      ∧ (∀ i, i < 16 → i ≠ s.config.bits.cm.val → (t.display s.chan).dcr.getLsbD i = (s.display s.chan).dcr.getLsbD i))
  ∧ defaultBits.dp.val = 8 ∧ defaultBits.cm.val = 11

/-! ## REGISTER SET -/

/-- 45 R252, 30 R113: SET_CLUT writes the zero-extended operand into entry `bank * 64 + slot` of the issuing channel's CLUT;
every other entry of both channels, and everything else, is as before. -/
def Obligations.SetClutWritesOneEntry : Prop :=
  ∀ (s : State) (slot : BitVec 6) (value : Operand),
    ∃ t, exec (.setClut slot value) s = .next t ∧ onlyChannel s.chan s t ∧ t.walk = s.walk
      ∧ t.display s.chan = { s.display s.chan with clut := (t.display s.chan).clut }
      ∧ ∀ (c : Channel) (k : Byte),
        clutEntry t c k
          = if c = s.chan ∧ k.toNat = (s.display s.chan).clutBank.toNat * 64 + slot.toNat
            then BitVec.ofNat 32 value.toNat else clutEntry s c k

/-- 45 R256, R266: SET_CLUT_BANK and SET_RC write the issuing channel's own copy and nothing else, from either channel's
stream. SET_RC keeps the whole operand (92 D49). -/
def Obligations.SetClutBankAndRegionControlAreOwn : Prop :=
  (∀ (s : State) (bank : BitVec 2),
    ∃ t, exec (.setClutBank bank) s = .next t ∧ onlyChannel s.chan s t ∧ t.walk = s.walk
      ∧ t.display s.chan = { s.display s.chan with clutBank := bank })
  ∧ ∀ (s : State) (n : BitVec 3) (value : Operand),
    ∃ t, exec (.setRc n value) s = .next t ∧ onlyChannel s.chan s t ∧ t.walk = s.walk
      ∧ t.display s.chan = { s.display s.chan with rc := (t.display s.chan).rc }
      ∧ ∀ k : Fin 8, (t.display s.chan).rc[k] = if k.val = n.toNat then value else (s.display s.chan).rc[k]

/-- 45 R250, R253 to R255, R263 to R265: the image coding, transparency, plane order and cursor registers are written from
channel 0's stream, and from channel 1's nothing changes. The word of a cursor pattern write is its low 16 operand bits. -/
def Obligations.Channel0OwnedRegistersAreGated : Prop :=
  ∀ s : State,
    (∀ v, ∃ t, exec (.setIcm v) s = .next t ∧ onlyRegs s t
      ∧ t.regs = if s.chan = .a then { s.regs with icm := v } else s.regs)
    ∧ (∀ v, ∃ t, exec (.setTcr v) s = .next t ∧ onlyRegs s t
      ∧ t.regs = if s.chan = .a then { s.regs with tcr := v } else s.regs)
    ∧ (∀ v, ∃ t, exec (.setPor v) s = .next t ∧ onlyRegs s t
      ∧ t.regs = if s.chan = .a then { s.regs with por := v } else s.regs)
    ∧ (∀ v, ∃ t, exec (.setCurpos v) s = .next t ∧ onlyRegs s t
      ∧ t.regs = if s.chan = .a then { s.regs with curpos := v } else s.regs)
    ∧ (∀ v, ∃ t, exec (.setCurcnt v) s = .next t ∧ onlyRegs s t
      ∧ t.regs = if s.chan = .a then { s.regs with curcnt := v } else s.regs)
    ∧ ∀ (index : BitVec 4) (word : Half), ∃ t, exec (.setCurpat index word) s = .next t ∧ onlyRegs s t
      ∧ t.regs = { s.regs with curpat := t.regs.curpat }
      ∧ ∀ k : Fin 16, t.regs.curpat[k] = if s.chan = .a ∧ k.val = index.toNat then word else s.regs.curpat[k]

/-- 45 R257 to R271: the registers named "A" and the backdrop are written from channel 0's stream only, those named "B" from
channel 1's only. That ownership is the spec's decision (92 D16). -/
def Obligations.ColourAndWeightRegistersAreGated : Prop :=
  ∀ (s : State) (v : Operand),
    (∃ t, exec (.setTca v) s = .next t ∧ onlyRegs s t ∧ t.regs = if s.chan = .a then { s.regs with tca := v } else s.regs)
    ∧ (∃ t, exec (.setTcb v) s = .next t ∧ onlyRegs s t ∧ t.regs = if s.chan = .b then { s.regs with tcb := v } else s.regs)
    ∧ (∃ t, exec (.setMca v) s = .next t ∧ onlyRegs s t ∧ t.regs = if s.chan = .a then { s.regs with mca := v } else s.regs)
    ∧ (∃ t, exec (.setMcb v) s = .next t ∧ onlyRegs s t ∧ t.regs = if s.chan = .b then { s.regs with mcb := v } else s.regs)
    ∧ (∃ t, exec (.setDyuva v) s = .next t ∧ onlyRegs s t
      ∧ t.regs = if s.chan = .a then { s.regs with dyuva := v } else s.regs)
    ∧ (∃ t, exec (.setDyuvb v) s = .next t ∧ onlyRegs s t
      ∧ t.regs = if s.chan = .b then { s.regs with dyuvb := v } else s.regs)
    ∧ (∃ t, exec (.setBackdrop v) s = .next t ∧ onlyRegs s t
      ∧ t.regs = if s.chan = .a then { s.regs with backdrop := v } else s.regs)
    ∧ (∃ t, exec (.setMha v) s = .next t ∧ onlyRegs s t ∧ t.regs = if s.chan = .a then { s.regs with mha := v } else s.regs)
    ∧ (∃ t, exec (.setMhb v) s = .next t ∧ onlyRegs s t ∧ t.regs = if s.chan = .b then { s.regs with mhb := v } else s.regs)
    ∧ (∃ t, exec (.setWfa v) s = .next t ∧ onlyRegs s t ∧ t.regs = if s.chan = .a then { s.regs with wfa := v } else s.regs)
    ∧ ∃ t, exec (.setWfb v) s = .next t ∧ onlyRegs s t ∧ t.regs = if s.chan = .b then { s.regs with wfb := v } else s.regs

/-- 45 R280: a command whose number names no register is logged and changes nothing else; with the default numbering these
are the 46 opcodes 0x70 to 0x77, 0xC5, 0xC8, 0xCC and 0xDD to 0xFF (92 D15, D18). -/
def Obligations.UnassignedRegisterNumbersAreDropped : Prop :=
  (∀ (m : Mode) (w : Command),
    (∃ reg, decode RegsetMap.default m w = .regsetUnassigned reg) ↔ unassignedOpcode (cmdOpcode w) = true)
  ∧ ∀ (s : State) (reg : Byte), ∃ t, exec (.regsetUnassigned reg) s = .next t ∧ onlyWalkAndLog s t ∧ t.walk = s.walk
      ∧ t.log = s.log ++ [.unknownRegister]

/-! ## What commands can do, over all of them -/

/-- 43 R211: a command halts the walk exactly if it is STOP, RELOAD_DCP_STOP or RELOAD_VSR_STOP; none moves `ip` but
RELOAD_ICA, and none changes the channel, the mode, the count or the cap (R230). -/
def Obligations.OnlyThreeCommandsHalt : Prop :=
  ∀ (i : Instr) (s t : State), s.walk.stop = false → exec i s = .next t →
    (t.walk.stop = true ↔ i.mnemonic = "STOP" ∨ i.mnemonic = "RELOAD_DCP_STOP" ∨ i.mnemonic = "RELOAD_VSR_STOP")
    ∧ (t.walk.ip ≠ s.walk.ip → i.mnemonic = "RELOAD_ICA")
    ∧ t.walk.chan = s.walk.chan ∧ t.walk.mode = s.walk.mode ∧ t.walk.count = s.walk.count ∧ t.walk.max = s.walk.max
    ∧ t.walk.running = s.walk.running

/-- 43 R217: no command writes plane memory, the peripheral block, the configuration or anything of the sequencer; it leaves the
other channel's registers alone but for bits 2:1 of channel 1's status; and of its own channel's status register and control
register it writes nothing but those bits. -/
def Obligations.CommandsStayInsideTheirChannel : Prop :=
  ∀ (i : Instr) (s t : State), exec i s = .next t →
    outsideCommands s t
    ∧ (∀ c, c ≠ s.chan → t.display c = { s.display c with csrr := (t.display c).csrr })
    ∧ (∀ c, (t.display c).csrw = (s.display c).csrw)
    ∧ t.chA.csrr = s.chA.csrr ∧ t.chB.csrr &&& 0xF9 = s.chB.csrr &&& 0xF9
    ∧ (t.irq ≠ s.irq → i = .interrupt)
    ∧ (t.chB.csrr ≠ s.chB.csrr → i = .interrupt)

/-- 10 R21, 45 R281: a CLUT entry and a register of rules R40 to R47 change only by a REGISTER SET command or a machine reset: not by
a CPU access, not by the Timer0 event, not by the scan event's own work, not by the step that runs any other command, whether or not
that step ends a walk. A machine reset that waits while an event of the block goes first changes nothing yet; which goes first is the
model's timed reading (log entries 6, 7, 9). -/
def Obligations.OnlyCommandsWriteRegisterSetRegisters : Prop :=
  ∀ s t : State, step s = .next t →
    (s.walk.running = true → isRegisterSet (nextCommand s) = false) →
    (s.walk.running = false → ∀ x rest, s.agenda = x :: rest → externalFirst s x = true → x.event ≠ .machineReset) →
    t.regs = s.regs ∧ ∀ c, (t.display c).clut = (s.display c).clut ∧ (t.display c).clutBank = (s.display c).clutBank
      ∧ (t.display c).rc = (s.display c).rc

/-! ## The walker -/

/-- 43 R216: when a DCA invocation ends, DCP is the byte address of the word after the last command fetched, at 22 bits, unless
RELOAD_DCP_STOP ended it; no other bit of DDR, no other register of the issuing channel and nothing else of the state but the walker's
registers changes. An ICA invocation leaves DCP alone. The write-back is the spec's decision (92 D20); the idle values of the walker's
registers are the model's (log entry 18). -/
def Obligations.DcpIsWrittenBackAtTheEndOfADca : Prop :=
  ∀ s : State, (endWalk s).walk = Walker.idle
    ∧ (s.walk.mode = .dca → s.walk.dcpReloaded = false →
      (getDcp (endWalk s) s.chan).toNat = (2 * s.walk.ip) % 2 ^ 22
      ∧ (∀ i, i < 16 → inField s.config.bits.dcpHigh.val 6 i = false →
          ((endWalk s).display s.chan).ddr.getLsbD i = (s.display s.chan).ddr.getLsbD i)
      ∧ endWalk s = { s.setDisplay s.chan { s.display s.chan with
            dcp := ((endWalk s).display s.chan).dcp, ddr := ((endWalk s).display s.chan).ddr } with
          walk := Walker.idle })
    ∧ (s.walk.mode = .ica ∨ s.walk.dcpReloaded = true → endWalk s = { s with walk := Walker.idle })

/-- 43 R213: the cap is 64 if colour mode is set when the invocation starts and 32 if not, and a DCA walk ends after the command
that makes the count reach it, stopping command or not. When the sample is taken is the spec's decision (92 D19). -/
def Obligations.DcaCapIsSampledAtTheStart : Prop :=
  (∀ (s : State) (c : Channel) (m : Mode),
    (startWalk s c m).walk.max = if (s.display c).dcr.getLsbD s.config.bits.cm.val then 64 else 32)
  ∧ ∀ s t : State, s.walk.running = true → s.walk.mode = .dca → s.walk.count + 1 = s.walk.max →
    step s = .next t → t.walk.running = false ∨ (s.walk.chan = .a ∧ t.walk.chan = .b ∧ t.walk.count = 0)

/-- 43 R215, R213: a DCA invocation ends within its cap: from any point of one, at most 64 steps lead to a state with no walk in
progress or with channel 1's walk about to fetch its first command. -/
def Obligations.DcaInvocationTerminates : Prop :=
  ∀ s : State, s.walk.running = true → s.walk.mode = .dca → s.walk.count < s.walk.max → s.walk.max ≤ 64 →
    ∃ k t, 0 < k ∧ k ≤ s.walk.max - s.walk.count ∧ Sys2Proof.core.run k s = .next t
      ∧ (t.walk.running = false ∨ (s.walk.chan = .a ∧ t.walk.chan = .b ∧ t.walk.count = 0))

/-- 47 R326, 43 R213: a scan event of an active line always completes, after at most 128 commands. -/
def Obligations.ActiveLineEventCompletes : Prop :=
  ∀ s : State, s.walk.running = false → Config.firstActiveLine ≤ s.line →
    ∃ t, settle 128 (fireScan s) = some t ∧ t.walk.running = false ∧ t.line = (s.line + 1) % s.config.totalLines

/-- 43 R215, R225, 60 R345: an ICA walk at a RELOAD_ICA whose target is that very word never completes its event:
no number of steps leads to a state with no walk in progress, which is the model's form of a hang (92 D40, log entry 8). -/
def Obligations.IcaJumpToItselfHangs : Prop :=
  ∀ (s : State) (addr : Addr21), s.walk.running = true → s.walk.mode = .ica → s.walk.stop = false →
    2 * s.walk.ip + 3 < s.config.planeBytes → nextCommand s = .reloadIca addr → addr.toNat / 2 = s.walk.ip → hangs s

/-- 43 R214: an ICA invocation ends at the first STOP, RELOAD_DCP_STOP or RELOAD_VSR_STOP it executes and at nothing else; every
ICA starts at word 0x200; and a stream that is a single STOP ends after that one fetch, whichever channel runs it. -/
def Obligations.IcaEndsAtItsFirstStop : Prop :=
  (∀ s t : State, s.walk.running = true → s.walk.mode = .ica → s.walk.stop = false →
    exec (nextCommand s) (advance s) = .next t →
    step s = .next (if (nextCommand s).mnemonic = "STOP" ∨ (nextCommand s).mnemonic = "RELOAD_DCP_STOP"
        ∨ (nextCommand s).mnemonic = "RELOAD_VSR_STOP" then afterWalk (endWalk t) s.walk.chan .ica else t))
  ∧ (∀ (s : State) (c : Channel), (startWalk s c .ica).walk.ip = 0x200)
  ∧ ∀ s : State, s.walk.running = true → s.walk.mode = .ica → nextCommand s = .stop →
    ∃ t, step s = .next t ∧ (∀ c, t.display c = s.display c) ∧ t.regs = s.regs ∧ t.irq = s.irq
      ∧ (t.walk.running = false ∧ t.line = (s.line + 1) % s.config.totalLines
        ∨ s.walk.chan = .a ∧ t.walk.running = true ∧ t.walk.chan = .b ∧ t.walk.mode = .ica
          ∧ t.walk.ip = 0x200 ∧ t.walk.count = 0)

/-- 47 R321, 43 R211: running the machine's steps from the start of a scan event until no walk is in progress gives exactly the
results of the event as the spec writes it, loops and all. A walk that never stops has none in either. That a
step is one command is the model's choice (log entry 8). -/
def Obligations.StepsRefineTheScanEvent : Prop :=
  ∀ s t : State, s.walk.running = false →
    ((∃ fuel, settle fuel (beginScan s) = some t) ↔ ∃ fuel, scanEvent fuel s = some t)

/-! ## The scan event -/

/-- 47 R322, R324, R327, R329: a processed line 0 event clears DA and a processed event of an active line sets it, and neither touches
another bit of channel 0's status, whether or not a walk follows; the event of a line 1 to 21, and one that display-enable gates off,
changes the line number, re-arms the scan event and changes nothing else. The idle lines and the gate are the spec's decisions (92 D22,
D29); the places of DA and DE are parameters with the spec's defaults (92 D7, D11). -/
def Obligations.ScanEventFollowsTheLine : Prop :=
  (∀ s : State,
    (lineProcessed s = true → s.line = 0 → ∀ i, i < 8 →
      (beginScan s).chA.csrr.getLsbD i = if i = s.config.bits.da.val then false else s.chA.csrr.getLsbD i)
    ∧ (lineProcessed s = true → 22 ≤ s.line → ∀ i, i < 8 →
      (beginScan s).chA.csrr.getLsbD i = if i = s.config.bits.da.val then true else s.chA.csrr.getLsbD i)
    ∧ ((1 ≤ s.line ∧ s.line < 22) ∨ (s.config.honorDe = true ∧ s.chA.dcr.getLsbD s.config.bits.de.val = false) →
        beginScan s = { s with line := (s.line + 1) % s.config.totalLines, scanDue := s.now + s.config.linePeriod })
    ∧ (beginScan s).chB.csrr = s.chB.csrr)
  ∧ defaultBits.da.val = 7 ∧ defaultBits.de.val = 15

/-- 47 R323, R326: a walk starts exactly for a channel whose enable is set, ICA at word 0x200 on line 0, DCA at DCP / 2 on an active
line, channel 0's first and channel 1's when channel 0's is over or not enabled; where neither is enabled no walk starts, and after
channel 1's turn the line is over. The order is the spec's decision (92 D21); the places of the enables are parameters with the spec's
defaults (92 D7), and the statement is of layouts whose fields share no bit. -/
def Obligations.WalksStartOnlyWhereEnabled : Prop :=
  (∀ (s : State) (m : Mode), s.config.bits.disjoint = true →
    let entry : State → Channel → Walker := fun u c =>
      { running := true, chan := c, mode := m
        ip := match m with | .ica => 0x200 | .dca => (getDcp u c).toNat / 2
        count := 0, max := if (u.display c).dcr.getLsbD u.config.bits.cm.val then 64 else 32
        dcpReloaded := false, stop := false }
    let enabled : Channel → Bool := fun c =>
      (s.display c).dcr.getLsbD (match m with | .ica => s.config.bits.ica.val | .dca => s.config.bits.dca.val)
    (lineProcessed s = true → (m = .ica ∧ s.line = 0) ∨ (m = .dca ∧ 22 ≤ s.line) →
      (enabled .a = true → (beginScan s).walk = entry s .a)
      ∧ (enabled .a = false → enabled .b = true → (beginScan s).walk = entry s .b)
      ∧ (enabled .a = false → enabled .b = false → (beginScan s).walk = s.walk))
    ∧ (enabled .b = true → afterWalk s .a m = { s with walk := entry s .b })
    ∧ (enabled .b = false → afterWalk s .a m
        = { s with line := (s.line + 1) % s.config.totalLines, scanDue := s.now + s.config.linePeriod })
    ∧ afterWalk s .b m = { s with line := (s.line + 1) % s.config.totalLines, scanDue := s.now + s.config.linePeriod })
  ∧ (∀ s : State, lineProcessed s = false ∨ (0 < s.line ∧ s.line < 22) → (beginScan s).walk = s.walk)
  ∧ defaultBits.disjoint = true ∧ defaultBits.ica.val = 9 ∧ defaultBits.dca.val = 8

/-! ## The renderer -/

/-- 46 R292: an 8-bit bitmap line is 384 bytes from VSR on, each giving two pixels of the CLUT entry it indexes, and VSR is 384
further, at 22 bits. The file-type codes and their place are the spec's decisions (92 D7, D8, D26); bytes past
the plane are free values of the model's form (log entry 1). -/
def Obligations.BitmapLineIsTwoPixelsAByte : Prop :=
  ∀ (s : State) (c : Channel), (s.display c).dcr.getLsbD s.config.bits.cm.val = false →
    ((s.display c).ddr.extractLsb' s.config.bits.ft.val 2 = (0 : BitVec 2)
      ∨ (s.display c).ddr.extractLsb' s.config.bits.ft.val 2 = (1 : BitVec 2)) →
    (renderPixels s c).length = 768
    ∧ (∀ i, i < 384 →
        (renderPixels s c)[2 * i]?
          = some (clutEntry s c (planeByte s c ((getVsr s c).toNat + i) (s.freeCount + i)))
        ∧ (renderPixels s c)[2 * i + 1]? = (renderPixels s c)[2 * i]?)
    ∧ (getVsr (renderState s c) c).toNat = ((getVsr s c).toNat + 384) % 2 ^ 22

/-- 46 R295: one run-length item: a literal is one pair, a run is `len` pairs clamped to the line, a run of length 0 fills the
line; the index is the low seven bits, and a run always consumes two bytes. That a clamped run drops its remainder is the spec's
decision (92 D25). -/
def Obligations.RunLengthItemPixels : Prop :=
  ∀ (rd : Nat → Byte) (lut : Byte → Pixel) (i x : Nat), x < 768 →
    ((rd i).toNat < 128 → rleItem rd lut i x = ([lut (rd i), lut (rd i)], i + 1))
    ∧ (128 ≤ (rd i).toNat → (rd (i + 1)).toNat = 0 →
        rleItem rd lut i x = (List.replicate (768 - x) (lut (BitVec.ofNat 8 ((rd i).toNat - 128))), i + 2))
    ∧ (128 ≤ (rd i).toNat → (rd (i + 1)).toNat ≠ 0 →
        rleItem rd lut i x
          = (List.replicate (min (2 * (rd (i + 1)).toNat) (768 - x)) (lut (BitVec.ofNat 8 ((rd i).toNat - 128))), i + 2))

/-- 46 R294 to R296: a run-length line is the items of R295 one after another from VSR on, until 768 pixels are out; whatever the
bytes, that is exactly 768 pixels of at least 2 and at most 768 bytes, and VSR is left just past them, at 22 bits. That VSR is always
left there is the spec's decision (92 D23); bytes past the plane are free values of the model's form (log entry 1). -/
def Obligations.RunLengthLineFillsTheLine : Prop :=
  ∀ (s : State) (c : Channel), (s.display c).dcr.getLsbD s.config.bits.cm.val = false →
    (s.display c).ddr.extractLsb' s.config.bits.ft.val 2 = (2 : BitVec 2) →
    (renderPixels s c).length = 768
    ∧ ∃ n, 2 ≤ n ∧ n ≤ 768 ∧ (decodeLine s c).2 = n
      ∧ RunLengthItems (fun i => planeByte s c ((getVsr s c).toNat + i) (s.freeCount + i)) (clutEntry s c) 0 0
          (renderPixels s c) n
      ∧ (getVsr (renderState s c) c).toNat = ((getVsr s c).toNat + n) % 2 ^ 22

/-- 46 R300: in an unimplemented mode the line is logged, VSR and every register stay as they are, and each pixel is a free value,
none used twice. That VSR stays is the spec's decision (92 D24); the form of the free value is the model's (log entry 5). -/
def Obligations.UnimplementedModesKeepVsr : Prop :=
  ∀ (s : State) (c : Channel), (s.display c).dcr.getLsbD s.config.bits.cm.val = true
      ∨ (s.display c).ddr.extractLsb' s.config.bits.ft.val 2 = (3 : BitVec 2) →
    (renderPixels s c).length = 768
    ∧ (∀ i, i < 768 → (renderPixels s c)[i]? = some (Config.freePixel (s.freeCount + i)))
    ∧ renderState s c = { s with log := s.log ++ [.unimplementedMode], freeCount := s.freeCount + 768 }

/-- 46 R290, R299: the pixels of a line depend on nothing but that channel's plane, VSR, display mode and CLUT. In particular
neither the other channel nor any register set by REGISTER SET other than the CLUT has a part in them. Two states are compared under
one size of the plane (a parameter) and under the same draws of the free values: the same number of resets and of draws so far, which
are the model's own fields (log entries 1, 2, 3, 5). -/
def Obligations.PixelsDependOnTheirChannelOnly : Prop :=
  ∀ (s t : State) (c : Channel), t.plane c = s.plane c → t.config.planeBytes = s.config.planeBytes → t.epoch = s.epoch →
    t.freeCount = s.freeCount → getVsr t c = getVsr s c →
    (t.display c).displayMode t.config.bits = (s.display c).displayMode s.config.bits →
    (t.display c).clut = (s.display c).clut →
    renderPixels t c = renderPixels s c

/-- 47 R325, 46 R305, R306: the event of an active line that is processed renders channel 0 and then channel 1, and appends one record:
the line, both channels' pixels and their composite. Each channel's VSR moves as its own rendering moves it (R296, R300); every bit of
DCR outside VSR's high field, and everything else of the state but the log and the count of free draws, is as rendering found it. Up to
its first command such an event does no more than that but for channel 0's status, the walker's registers, the line number and the time
of the next event; and a processed event of line 0 renders nothing and changes only those. The composite is a parameter (92 D27), the
record's form the spec's decision (92 D46), the count of draws the model's (log entries 1, 5). -/
def Obligations.ActiveLineAppendsOneRecord : Prop :=
  ∀ s : State,
    let pxA := renderPixels s .a
    let pxB := renderPixels (drawn s 768) .b
    renderLine s = { s with
        chA := { s.chA with vsr := (renderLine s).chA.vsr, dcr := (renderLine s).chA.dcr }
        chB := { s.chB with vsr := (renderLine s).chB.vsr, dcr := (renderLine s).chB.dcr }
        videoOut := s.videoOut ++ [⟨s.line, pxA, pxB, compose s.config.composite pxA pxB⟩]
        log := (renderLine s).log, freeCount := s.freeCount + 1536 }
    ∧ (renderLine s).chA = (renderState s .a).chA
    ∧ (renderLine s).chB = (renderState (drawn s 768) .b).chB
    ∧ (getVsr (renderLine s) .a).toNat
        = (if (s.display .a).displayMode s.config.bits = .unimplemented then (getVsr s .a).toNat
          else ((getVsr s .a).toNat + (decodeLine s .a).2) % 2 ^ 22)
    ∧ (getVsr (renderLine s) .b).toNat
        = (if (s.display .b).displayMode s.config.bits = .unimplemented then (getVsr s .b).toNat
          else ((getVsr s .b).toNat + (decodeLine (drawn s 768) .b).2) % 2 ^ 22)
    ∧ (∀ c i, i < 16 → inField s.config.bits.vsrHigh.val 6 i = false →
        ((renderLine s).display c).dcr.getLsbD i = (s.display c).dcr.getLsbD i)
    ∧ compose .channelA pxA pxB = pxA
    ∧ (lineProcessed s = true → 22 ≤ s.line →
        (beginScan s).videoOut = s.videoOut ++ [⟨s.line, pxA, pxB, compose s.config.composite pxA pxB⟩]
        ∧ (∀ c, getVsr (beginScan s) c = getVsr (renderLine s) c)
        ∧ beginScan s = { renderLine s with
            chA := { (renderLine s).chA with csrr := (beginScan s).chA.csrr }
            walk := (beginScan s).walk, line := (beginScan s).line, scanDue := (beginScan s).scanDue })
    ∧ (lineProcessed s = true → s.line = 0 →
        beginScan s = { s with
          chA := { s.chA with csrr := (beginScan s).chA.csrr }
          walk := (beginScan s).walk, line := (beginScan s).line, scanDue := (beginScan s).scanDue })

/-! ## Registers the CPU reaches -/

/-- 42 R200 to R203: the split address registers, field by field; every other bit, register and channel is kept. The place of
the high field is a parameter, bits 5:0 by default (92 D6). -/
def Obligations.SplitAddressRegistersAreWrittenByField : Prop :=
  (∀ (s : State) (c : Channel) (a : Nat),
    let hv := s.config.bits.vsrHigh.val
    let hd := s.config.bits.dcpHigh.val
    (let t := setVsr s c a;
      t = s.setDisplay c { s.display c with vsr := BitVec.ofNat 16 a, dcr := (t.display c).dcr }
      ∧ (t.display c).dcr.extractLsb' hv 6 = BitVec.ofNat 6 (a / 2 ^ 16)
      ∧ ∀ i, i < 16 → inField hv 6 i = false → (t.display c).dcr.getLsbD i = (s.display c).dcr.getLsbD i)
    ∧ (let t := setDcp s c a;
      t = s.setDisplay c { s.display c with dcp := BitVec.ofNat 16 a, ddr := (t.display c).ddr }
      ∧ (t.display c).ddr.extractLsb' hd 6 = BitVec.ofNat 6 (a / 2 ^ 16)
      ∧ ∀ i, i < 16 → inField hd 6 i = false → (t.display c).ddr.getLsbD i = (s.display c).ddr.getLsbD i)
    ∧ (getVsr s c).toNat = ((s.display c).dcr.toNat / 2 ^ hv % 64) * 2 ^ 16 + (s.display c).vsr.toNat
    ∧ (getDcp s c).toNat = ((s.display c).ddr.toNat / 2 ^ hd % 64) * 2 ^ 16 + (s.display c).dcp.toNat)
  ∧ defaultBits.vsrHigh.val = 0 ∧ defaultBits.dcpHigh.val = 0

/-- 42 R204: for every 22-bit address, VSR and DCP read back what was set; for a larger one, its low 22 bits. -/
def Obligations.SplitAddressRoundTrip : Prop :=
  ∀ (s : State) (c : Channel) (a : Nat),
    (getVsr (setVsr s c a) c).toNat = a % 2 ^ 22 ∧ (getDcp (setDcp s c a) c).toNat = a % 2 ^ 22

/-- 42 R194, R195: at k = 1, 2, 4, 5 of either block, a CPU write combines the selected lanes into DCR, VSR, DDR or DCP of the
channel the offset decodes to (`1 - offset / 8`) and changes nothing else; a read returns the whole register and changes nothing.
The slots are the spec's decision (92 D10). -/
def Obligations.DisplayRegistersReadAndWriteByLane : Prop :=
  ∀ (s : State) (k : Fin 8) (r : SlotReg) (m : Lanes) (d : Half), s.config.slotLayout = defaultSlotLayout →
    (k.val = 1 ∧ r = .dcr ∨ k.val = 2 ∧ r = .vsr ∨ k.val = 4 ∧ r = .ddr ∨ k.val = 5 ∧ r = .dcp) →
    (∀ c, let o := BitVec.ofNat 4 (k.val + match c with | .a => 8 | .b => 0)
      runExternal s (.mcd212Read o m) = .next { s with busOut := s.busOut ++ [(s.display c).readSlot r] }
      ∧ ∃ t, runExternal s (.mcd212Write o m d) = .next t
        ∧ t = s.setDisplay c (t.display c)
        ∧ (∀ q, q ≠ r → (t.display c).readSlot q = (s.display c).readSlot q)
        ∧ (t.display c).csrw = (s.display c).csrw ∧ (t.display c).clut = (s.display c).clut
        ∧ (t.display c).clutBank = (s.display c).clutBank ∧ (t.display c).rc = (s.display c).rc
        ∧ ∀ i, i < 16 → ((t.display c).readSlot r).getLsbD i
            = if (8 ≤ i ∧ m ≠ .low) ∨ (i < 8 ∧ m ≠ .high) then d.getLsbD i else ((s.display c).readSlot r).getLsbD i)

/-- 42 R191 to R193: reading channel 0's status changes nothing; reading channel 1's in the low lane returns the old value, clears
IT1 and IT2 and drops the lines both LIR fields name, and no other; writing the slot stores the control register and cannot touch
a status bit. The clearing is the spec's decision (92 D11, D14). -/
def Obligations.StatusReadAcknowledgesInterrupts : Prop :=
  ∀ (s : State) (m : Lanes), s.config.slotLayout = defaultSlotLayout →
    mcd212Read s 8 m = { s with busOut := s.busOut ++ [s.chA.csrr.setWidth 16] }
    ∧ (m = .high → mcd212Read s 0 m = { s with busOut := s.busOut ++ [s.chB.csrr.setWidth 16] })
    ∧ (m ≠ .high → ∃ t, mcd212Read s 0 m = t
        ∧ t = { s with busOut := s.busOut ++ [s.chB.csrr.setWidth 16], irq := t.irq,
                       chB := { s.chB with csrr := s.chB.csrr &&& 0xF9 } }
        ∧ ∀ n : IrqLine, t.irq[n]
            = if n.number = (s.periph.lir.extractLsb' 4 3).toNat ∨ n.number = (s.periph.lir.extractLsb' 0 3).toNat
              then ⟨false, (s.irq[n]).vector⟩ else s.irq[n])
    ∧ ∀ d, mcd212Write s 8 m d = { s with chA := { s.chA with csrw := combine s.chA.csrw d m } }
        ∧ mcd212Write s 0 m d = { s with chB := { s.chB with csrw := combine s.chB.csrw d m } }

/-- 40 R143, 42 R196: at k = 3, 6 and 7 of either block of the display page, and at an offset the layout of the peripheral page
does not list (in the default layout 0x2030 is one), a read is logged and returns 0 and a write changes no state; neither is
fatal. Which slots are empty is the spec's decision (92 D10). -/
def Obligations.UnimplementedRegistersReadZero : Prop :=
  (∀ (s : State) (o : BitVec 4) (m : Lanes) (d : Half), s.config.slotLayout = defaultSlotLayout →
    (o.toNat % 8 = 3 ∨ o.toNat % 8 = 6 ∨ o.toNat % 8 = 7) →
    runExternal s (.mcd212Read o m)
      = .next { s with busOut := s.busOut ++ [0], log := s.log ++ [.unimplementedRegister] }
    ∧ runExternal s (.mcd212Write o m d) = .next s)
  ∧ (∀ (s : State) (w : Nat) (m : Lanes) (d : Half), s.config.periphLayout.lookup (2 * w) = none →
    runExternal s (.periphRead w m)
      = .next { s with busOut := s.busOut ++ [0], log := s.log ++ [.unimplementedRegister] }
    ∧ runExternal s (.periphWrite w m d) = .next s)
  ∧ defaultPeriphLayout.lookup 0x2030 = none

/-- 40 R141, R142, R145, R147 to R151: the CPU's bus access to any listed word of the page, under any layout. A read returns the word's
registers, high lane then low lane, 0 for an empty lane, or the one 16-bit register, whatever the lanes, and changes nothing else. A
write replaces each 8-bit register whose lane is selected, combines a 16-bit register lane by lane, and changes no other register and
nothing else; TSR, THR and timer0, whose writes do more, have statements of their own, lane by lane, and a write of both lanes of any
word of 8-bit registers is one of the low lane and then one of the high lane. The 24-bit DMA counters are two registers each.
That a read is of the whole word is the spec's decision (92 D44); which lane is written last where a layout puts one register in both
is the model's (log entry 19). -/
def Obligations.PeripheralStorageIsByRegister : Prop :=
  (∀ (s : State) (w : Nat) (m : Lanes) (d : Half) (high low : Option ByteReg),
    s.config.periphLayout.lookup (2 * w) = some (.bytes high low) →
    let value : Option ByteReg → Byte := fun r => match r with | some r => s.periph.readByte r | none => 0
    runExternal s (.periphRead w m) = .next { s with busOut := s.busOut ++ [value high ++ value low] }
    ∧ ((∀ r ∈ [high, low], r ≠ some .tsr ∧ r ≠ some .uartThr) →
      ∃ t, runExternal s (.periphWrite w m d) = .next t ∧ t = { s with periph := t.periph }
        ∧ (∀ q, t.periph.readByte q
            = if high = some q ∧ m ≠ .low then d.extractLsb' 8 8
              else if low = some q ∧ m ≠ .high then d.extractLsb' 0 8 else s.periph.readByte q)
        ∧ ∀ p, t.periph.readWord p = s.periph.readWord p)
    ∧ ∃ t, runExternal s (.periphWrite w .low d) = .next t
      ∧ runExternal s (.periphWrite w .both d) = runExternal t (.periphWrite w .high d))
  ∧ (∀ (s : State) (w : Nat) (m : Lanes) (d : Half) (r : WordReg), s.config.periphLayout.lookup (2 * w) = some (.word r) →
    runExternal s (.periphRead w m) = .next { s with busOut := s.busOut ++ [s.periph.readWord r] }
    ∧ (r ≠ .t0 →
      ∃ t, runExternal s (.periphWrite w m d) = .next t ∧ t = { s with periph := t.periph }
        ∧ (∀ p, t.periph.readWord p = if p = r then combine (s.periph.readWord r) d m else s.periph.readWord p)
        ∧ ∀ q, t.periph.readByte q = s.periph.readByte q))
  ∧ ∀ (p : Peripherals) (j : Fin 2),
    p.dma[j].memoryAddress = p.readByte (.dmaMemoryHigh j) ++ p.readWord (.dmaMemoryLow j)
    ∧ p.dma[j].deviceAddress = p.readByte (.dmaDeviceHigh j) ++ p.readWord (.dmaDeviceLow j)

/-- 10 R50, 40 R142, R144 to R151: the default layout of the page, word by word, and no word besides; and under it the writes of LIR and
PICR1, the selectors of the interrupts, which move no line, and of the transmit-holding register, which echoes the byte exactly when
UART_ECHO is set, there and in whichever word and lane a layout puts that register. A byte in a lane that is not selected is not
disturbed. The offsets and the echo are the spec's decisions (92 D30, D37). -/
def Obligations.SelectorAndEchoRegistersByLane : Prop :=
  (∀ (s : State) (m : Lanes) (d : Half), s.config.periphLayout = defaultPeriphLayout →
    runExternal s (.periphWrite (0x1000 / 2) m d)
      = .next (if m = .high then s else { s with periph := { s.periph with lir := d.extractLsb' 0 8 } })
    ∧ runExternal s (.periphWrite (0x2044 / 2) m d)
      = .next (if m = .high then s else { s with periph := { s.periph with picr1 := d.extractLsb' 0 8 } })
    ∧ runExternal s (.periphRead (0x1000 / 2) m) = .next { s with busOut := s.busOut ++ [s.periph.lir.setWidth 16] }
    ∧ runExternal s (.periphWrite (0x2018 / 2) m d)
      = .next (if m = .high then s else { s with
          periph := { s.periph with uartThr := d.extractLsb' 0 8 }
          uartOut := if s.config.uartEcho = true then s.uartOut ++ [d.extractLsb' 0 8] else s.uartOut }))
  ∧ (∀ (s : State) (w : Nat) (d : Half) (high low : Option ByteReg),
      s.config.periphLayout.lookup (2 * w) = some (.bytes high low) →
      (low = some .uartThr → runExternal s (.periphWrite w .low d) = .next { s with
        periph := { s.periph with uartThr := d.extractLsb' 0 8 }
        uartOut := if s.config.uartEcho = true then s.uartOut ++ [d.extractLsb' 0 8] else s.uartOut })
      ∧ (high = some .uartThr → runExternal s (.periphWrite w .high d) = .next { s with
        periph := { s.periph with uartThr := d.extractLsb' 8 8 }
        uartOut := if s.config.uartEcho = true then s.uartOut ++ [d.extractLsb' 8 8] else s.uartOut })
      ∧ (low = none → runExternal s (.periphWrite w .low d) = .next s)
      ∧ (high = none → runExternal s (.periphWrite w .high d) = .next s))
  ∧ (∀ e ∈ [(0x1000, ByteReg.lir), (0x2000, .i2cData), (0x2002, .i2cAddress), (0x2004, .i2cStatus), (0x2006, .i2cControl),
      (0x2008, .i2cClock), (0x2010, .uartMode), (0x2012, .uartStatus), (0x2014, .uartClockSelect), (0x2016, .uartCommand),
      (0x2018, .uartThr), (0x201A, .uartRhr), (0x2044, .picr1), (0x2046, .picr2)],
      defaultPeriphLayout.lookup e.1 = some (.bytes none (some e.2)))
  ∧ defaultPeriphLayout.lookup 0x2020 = some (.bytes (some .tsr) (some .tcr))
  ∧ (∀ e ∈ [(0x2022, WordReg.reload), (0x2024, .t0), (0x2026, .t1), (0x2028, .t2)],
      defaultPeriphLayout.lookup e.1 = some (.word e.2))
  ∧ (∀ j : Fin 2, let base := 0x4000 + 0x40 * j.val
      defaultPeriphLayout.lookup (base + 0x00) = some (.bytes (some (.dmaStatus j)) (some (.dmaError j)))
      ∧ defaultPeriphLayout.lookup (base + 0x04)
        = some (.bytes (some (.dmaDeviceControl j)) (some (.dmaOperationControl j)))
      ∧ defaultPeriphLayout.lookup (base + 0x06)
        = some (.bytes (some (.dmaSequenceControl j)) (some (.dmaChannelControl j)))
      ∧ defaultPeriphLayout.lookup (base + 0x0A) = some (.word (.dmaTransferCounter j))
      ∧ defaultPeriphLayout.lookup (base + 0x0C) = some (.bytes none (some (.dmaMemoryHigh j)))
      ∧ defaultPeriphLayout.lookup (base + 0x0E) = some (.word (.dmaMemoryLow j))
      ∧ defaultPeriphLayout.lookup (base + 0x14) = some (.bytes none (some (.dmaDeviceHigh j)))
      ∧ defaultPeriphLayout.lookup (base + 0x16) = some (.word (.dmaDeviceLow j)))
  ∧ (∀ i : Fin 8, let base := 0x8040 + 8 * i.val
      defaultPeriphLayout.lookup base = some (.word (.mmuAttr i))
      ∧ defaultPeriphLayout.lookup (base + 2) = some (.word (.mmuLength i))
      ∧ defaultPeriphLayout.lookup (base + 4) = some (.bytes none (some (.mmuSegmentNumber i)))
      ∧ defaultPeriphLayout.lookup (base + 6) = some (.word (.mmuBase i)))
  ∧ defaultPeriphLayout.length = 67

/-! ## Timer0 -/

/-- 41 R171, R172: a write of timer0 under any lanes, at whichever word the layout puts it (0x2024 in the default one), stores the
combined value and arms the one event `0x10000 - timer0` ticks ahead, replacing a pending one; TSR and the lines are untouched. Arming
on a partial write is the spec's decision (92 D44), the offset too (92 D30). -/
def Obligations.TimerWriteArms : Prop :=
  (∀ (s : State) (w : Nat) (m : Lanes) (d : Half), s.config.periphLayout.lookup (2 * w) = some (.word .t0) →
    ∃ v : Half, v = combine s.periph.t0 d m
      ∧ runExternal s (.periphWrite w m d) = .next { s with
          periph := { s.periph with t0 := v }
          t0Armed := true
          t0Due := s.now + (0x10000 - v.toNat) * s.config.timerTick })
  ∧ defaultPeriphLayout.lookup 0x2024 = some (.word .t0)

/-- 41 R173: the Timer0 event reloads timer0, sets OV0, asserts the line PICR1 selects with vector 56 + n (selector 0: none), and
re-arms from the reloaded value. That it re-arms and that the selector is PICR1 are the spec's decisions (92 D31, D34). -/
def Obligations.TimerEventReloadsAndAsserts : Prop :=
  ∀ s : State, ∃ t, timer0Event s = t
    ∧ t = { s with
        periph := { s.periph with t0 := s.periph.reload, tsr := s.periph.tsr ||| 0x80 }
        irq := t.irq
        t0Armed := true
        t0Due := s.now + (0x10000 - s.periph.reload.toNat) * s.config.timerTick }
    ∧ ∀ n : IrqLine, t.irq[n]
        = if n.number = s.periph.picr1.toNat % 8 then ⟨true, BitVec.ofNat 8 (56 + n.number)⟩ else s.irq[n]

/-- 41 R175: a write of the TSR byte clears the bits written as 1 and sets none; the line PICR1 selects drops exactly when no bit
is left; in the word TSR shares with TCR, a write of the low lane alone changes TCR only. The same holds of TSR in whichever word and
lane a layout puts it. The lane and the line are the spec's decisions (92 D35), the offset of the default layout too (92 D30). -/
def Obligations.TimerStatusIsWriteOneToClear : Prop :=
  (∀ (s : State) (w : Nat) (m : Lanes) (d : Half),
    s.config.periphLayout.lookup (2 * w) = some (.bytes (some .tsr) (some .tcr)) →
    ∃ t, runExternal s (.periphWrite w m d) = .next t
      ∧ t = { s with
          periph := { s.periph with
            tcr := if m = .high then s.periph.tcr else d.extractLsb' 0 8
            tsr := if m = .low then s.periph.tsr else s.periph.tsr &&& ~~~(d.extractLsb' 8 8) }
          irq := t.irq }
      ∧ ∀ n : IrqLine, t.irq[n]
          = if m ≠ .low ∧ s.periph.tsr &&& ~~~(d.extractLsb' 8 8) = 0 ∧ n.number = s.periph.picr1.toNat % 8
            then ⟨false, (s.irq[n]).vector⟩ else s.irq[n])
  ∧ (∀ (s : State) (w : Nat) (m : Lanes) (d : Half) (high low : Option ByteReg),
    s.config.periphLayout.lookup (2 * w) = some (.bytes high low) →
    (m = .high ∧ high = some .tsr) ∨ (m = .low ∧ low = some .tsr) →
    let ones : Byte := match m with | .low => d.extractLsb' 0 8 | _ => d.extractLsb' 8 8
    ∃ t, runExternal s (.periphWrite w m d) = .next t
      ∧ t = { s with periph := { s.periph with tsr := s.periph.tsr &&& ~~~ones }, irq := t.irq }
      ∧ ∀ n : IrqLine, t.irq[n]
          = if s.periph.tsr &&& ~~~ones = 0 ∧ n.number = s.periph.picr1.toNat % 8
            then ⟨false, (s.irq[n]).vector⟩ else s.irq[n])
  ∧ defaultPeriphLayout.lookup 0x2020 = some (.bytes (some .tsr) (some .tcr))

/-! ## Interrupt lines, plane memory, agents -/

/-- 60 R351: Assert raises one line and gives it the vector, whether or not it was raised before. No other line changes. -/
def Obligations.AssertRaisesOneLine : Prop :=
  ∀ (s : State) (n k : IrqLine) (v w : Nat),
    assertLine s n v = { s with irq := (assertLine s n v).irq }
    ∧ (assertLine s n v).irq[n] = ⟨true, BitVec.ofNat 8 v⟩
    ∧ (k ≠ n → (assertLine s n v).irq[k] = s.irq[k])
    ∧ assertLine (assertLine s n v) n w = assertLine s n w

/-- 20 R83 to R85, R96: a CPU write of a plane word changes the bytes of the selected lanes that lie in the plane and no other byte of
either plane; a CPU read returns the even byte in the high half, and a byte past the end is a free value (R84, log entry 1). An access
with no selected byte in the plane is refused (93 U21). A CPU access by bus address is the access of the one plane or page that holds
the address, at the word its offset names, and refused where not exactly one does. The lane rule is the spec's decision (92 D43); what
a write of both lanes does where PLANE_BYTES cuts its word, and what addresses held by two regions or none do, is the model's (log
entries 17, 20). -/
def Obligations.PlaneAccessesAreByteLanes : Prop :=
  ∀ (s : State) (c : Channel) (w : Nat) (m : Lanes) (d : Half),
    ((m ≠ .low ∧ 2 * w < s.config.planeBytes ∨ m ≠ .high ∧ 2 * w + 1 < s.config.planeBytes) →
      ∃ t, runExternal s (.planeWrite c w m d) = .next t
        ∧ t = s.setPlane c (t.plane c)
        ∧ ∀ e a draw, planeByte t e a draw
            = if e = c ∧ a = 2 * w ∧ m ≠ .low ∧ a < s.config.planeBytes then d.extractLsb' 8 8
              else if e = c ∧ a = 2 * w + 1 ∧ m ≠ .high ∧ a < s.config.planeBytes then d.extractLsb' 0 8
              else planeByte s e a draw)
    ∧ (¬(m ≠ .low ∧ 2 * w < s.config.planeBytes ∨ m ≠ .high ∧ 2 * w + 1 < s.config.planeBytes) →
      runExternal s (.planeWrite c w m d) = .refused .accessNotRouted)
    ∧ (2 * w < s.config.planeBytes →
      ∃ v : Half, runExternal s (.planeRead c w)
          = .next { s with busOut := s.busOut ++ [v], freeCount := s.freeCount + 2 }
        ∧ v.extractLsb' 8 8 = storedByte s c (2 * w)
        ∧ v.extractLsb' 0 8 = planeByte s c (2 * w + 1) (s.freeCount + 1))
    ∧ (s.config.planeBytes ≤ 2 * w → runExternal s (.planeRead c w) = .refused .accessNotRouted)
    ∧ (∀ (r : BusRegion) (address : Nat), inRegion s.config address r = true →
        (∀ q, q ≠ r → inRegion s.config address q = false) → address = regionBase s.config r + 2 * w →
      runExternal s (.busRead address m)
          = runExternal s (match r with
            | .plane e => .planeRead e w | .mcd212 => .mcd212Read (BitVec.ofNat 4 w) m | .periph => .periphRead w m)
      ∧ runExternal s (.busWrite address m d)
          = runExternal s (match r with
            | .plane e => .planeWrite e w m d | .mcd212 => .mcd212Write (BitVec.ofNat 4 w) m d
            | .periph => .periphWrite w m d))
    ∧ ∀ address : Nat, ((∀ q, inRegion s.config address q = false)
          ∨ ∃ q r, q ≠ r ∧ inRegion s.config address q = true ∧ inRegion s.config address r = true) →
      runExternal s (.busRead address m) = .refused .accessNotRouted
      ∧ runExternal s (.busWrite address m d) = .refused .accessNotRouted

/-- 20 R85, R95, 43 R210: while a walk is in progress no other agent moves: a step takes nothing from outside, returns nothing to
the CPU, writes no plane byte, leaves the peripheral block, virtual time and Timer0 alone, and never faults or refuses. -/
def Obligations.NoOtherAgentMovesInsideAWalk : Prop :=
  ∀ s : State, s.walk.running = true →
    ∃ t, step s = .next t ∧ t.agenda = s.agenda ∧ t.busOut = s.busOut ∧ t.uartOut = s.uartOut
      ∧ t.videoOut = s.videoOut ∧ t.periph = s.periph ∧ t.now = s.now ∧ t.t0Armed = s.t0Armed ∧ t.t0Due = s.t0Due
      ∧ t.epoch = s.epoch ∧ ∀ c a draw, planeByte t c a draw = planeByte s c a draw

/-- 60 R356, R357: between walks, a CPU access or reset scheduled before the block's next event goes first, and at that event's due
time or later it waits; of the block's two events the one due first goes first, and of two due at one time either. The timed reading,
with ties between the block's events left free, is the model's (log entries 6, 7, 9). -/
def Obligations.AgentsMoveInTheOrderOfTheirTimes : Prop :=
  ∀ s : State, s.walk.running = false → eventsPending s →
    (∀ x rest, s.agenda = x :: rest → max s.now x.due < s.scanDue → (s.t0Armed = true → max s.now x.due < s.t0Due) →
      step s = runExternal { s with now := max s.now x.due, agenda := rest } x.event)
    ∧ ((∀ x rest, s.agenda = x :: rest → s.scanDue ≤ max s.now x.due) →
      (s.t0Armed = true → s.scanDue < s.t0Due) →
      step s = .next (beginScan { s with now := s.scanDue, freeCount := s.freeCount + 1 }))
    ∧ ((∀ x rest, s.agenda = x :: rest → s.t0Due ≤ max s.now x.due) →
      s.t0Armed = true → s.t0Due < s.scanDue →
      step s = .next (timer0Event { s with now := s.t0Due, freeCount := s.freeCount + 1 }))
    ∧ ((∀ x rest, s.agenda = x :: rest → s.t0Due ≤ max s.now x.due) →
      s.t0Armed = true → s.t0Due = s.scanDue →
      step s = .next (timer0Event { s with now := s.t0Due, freeCount := s.freeCount + 1 })
      ∨ step s = .next (beginScan { s with now := s.scanDue, freeCount := s.freeCount + 1 }))

/-! ## Reset and invariants -/

/-- 10 R70: what reset leaves: every register of `P` zero, every display register zero, of each channel and
single, line 0, no Timer0 event pending, every line
low, outputs empty, no walk in progress, and no plane byte or CLUT entry written. All but the peripheral block is the spec's
decision (92 D38). A machine reset, at any time between walks, puts the block back to those values and keeps only the configuration,
virtual time, what is still to come from outside and the count of free draws (the model's choice, log entry 16; 70 R380). -/
def Obligations.ResetLeavesTheStatedValues : Prop :=
  (∀ r, State.reset.periph.readByte r = 0) ∧ (∀ r, State.reset.periph.readWord r = 0)
  ∧ (∀ c r, (State.reset.display c).readSlot r = 0)
  ∧ (∀ c, (State.reset.display c).csrw = 0 ∧ (State.reset.display c).clutBank = 0
      ∧ ∀ k : Fin 8, (State.reset.display c).rc[k] = 0)
  ∧ (State.reset.regs
      = { icm := 0, tcr := 0, por := 0, tca := 0, tcb := 0, mca := 0, mcb := 0, dyuva := 0, dyuvb := 0, curpos := 0,
          curcnt := 0, curpat := State.reset.regs.curpat, backdrop := 0, mha := 0, mhb := 0, wfa := 0, wfb := 0 }
    ∧ ∀ k : Fin 16, State.reset.regs.curpat[k] = 0)
  ∧ State.reset.line = 0 ∧ State.reset.t0Armed = false ∧ (∀ n : IrqLine, (State.reset.irq[n]).level = false)
  ∧ State.reset.videoOut = [] ∧ State.reset.uartOut = [] ∧ State.reset.walk.running = false
  ∧ (∀ c a, Memory.get (State.reset.plane c) a = none) ∧ (∀ c a, Memory.get (State.reset.display c).clut a = none)
  ∧ ∀ s : State, ∃ t, runExternal s .machineReset = .next t
    ∧ { t with config := State.reset.config, now := 0, scanDue := State.reset.scanDue, agenda := [], freeCount := 0, epoch := 0,
               irq := State.reset.irq } = State.reset
    ∧ t.config = s.config ∧ t.now = s.now ∧ t.now ≤ t.scanDue ∧ t.agenda = s.agenda ∧ t.freeCount = s.freeCount
    ∧ ∀ n : IrqLine, (t.irq[n]).level = false

/-- The invariant of the machine holds at reset (10 R70, 92 D38, log entries 14, 18). -/
def Obligations.InvariantHoldsAtReset : Prop := Inv State.reset

/-- Every step keeps the invariant of the machine: canonical memories, CLUT entries of 24 bits, no status bit but the four the
block has, a line of the frame, a walk only in its phase and below its cap, legal vectors on asserted lines, no overdue event, and
whole records (10 R31, R55, R60, 43 R213, 47 R321, R325, 60 R354, R356). The walker's idle values and the order of due times are
the model's (log entries 6, 18). -/
def Obligations.EveryStepKeepsTheInvariant : Prop :=
  ∀ s t : State, Inv s → step s = .next t → Inv t

/-- 00 R8: no step changes a parameter. -/
def Obligations.NoStepChangesTheConfiguration : Prop :=
  ∀ s t : State, step s = .next t → t.config = s.config

/-- 20 R85: the block never writes plane memory. Only a CPU write, by plane or by bus address, or a machine reset does, and only in the
step that takes it: not while it waits for an event of the block that goes first. Which goes first is the model's timed reading (log
entries 6, 7, 9); that a machine reset leaves plane memory unspecified is the spec's decision (92 D38). -/
def Obligations.OnlyTheCpuWritesPlaneMemory : Prop :=
  ∀ s t : State, step s = .next t →
    (s.walk.running = true ∨ ∀ x rest, s.agenda = x :: rest → externalFirst s x = true →
      writesPlane s.config x.event = false ∧ x.event ≠ .machineReset) →
    ∀ c a draw, planeByte t c a draw = planeByte s c a draw

/-- 60 R343: the diagnostic log is not state: two runs from states that differ only in their logs differ only in their logs.
The two runs are compared under the same draws of the free values (log entries 1 to 5, 7). -/
def Obligations.RunsThatDifferInTheirLogsAreTheSame : Prop :=
  ∀ (k : Nat) (s t : State), withoutLog s = withoutLog t →
    outcomeWithoutLog (Sys2Proof.core.run k s) = outcomeWithoutLog (Sys2Proof.core.run k t)
end

