-- ==== Sys2Proof/Laws/Bits.lean ====
section
/-!
SUPPORT. Bit fields, lanes, bytes of a word, and the split address registers.
-/
namespace Sys2Proof.Machine

/-- Each bit of a register after a field was written: the field's bits are the field's, the others are kept. -/
theorem getLsbD_putField {w n : Nat} (r : BitVec w) (lo : Nat) (f : BitVec n) (i : Nat) (hi : i < w) :
    (putField r lo f).getLsbD i = if lo ≤ i ∧ i < lo + n then f.getLsbD (i - lo) else r.getLsbD i := by
  simp only [putField, BitVec.getLsbD_or, BitVec.getLsbD_and, BitVec.getLsbD_not, BitVec.getLsbD_shiftLeft,
    BitVec.getLsbD_setWidth, BitVec.getLsbD_allOnes]
  by_cases h1 : i < lo
  · have : ¬ (lo ≤ i ∧ i < lo + n) := by omega
    simp [h1, hi, this]
  · by_cases h2 : i < lo + n
    · have h3 : i - lo < n := by omega
      have h4 : i - lo < w := by omega
      have h5 : lo ≤ i := by omega
      simp [h1, h2, h3, h4, h5, hi]
    · have h3 : ¬ (i - lo < n) := by omega
      have h4 : f.getLsbD (i - lo) = false := BitVec.getLsbD_of_ge f (i - lo) (by omega)
      simp [h1, h2, h3, h4, hi]

/-- The field written is read back. -/
theorem extract_putField_same {w n : Nat} (r : BitVec w) (lo : Nat) (f : BitVec n) (h : lo + n ≤ w) :
    (putField r lo f).extractLsb' lo n = f := by
  apply BitVec.eq_of_getLsbD_eq
  intro i hi
  have h1 : lo + i < w := by omega
  rw [BitVec.getLsbD_extractLsb', getLsbD_putField r lo f (lo + i) h1]
  simp [hi]

/-- A field that does not meet the one written is kept. -/
theorem extract_putField_other {w n k : Nat} (r : BitVec w) (lo at' : Nat) (f : BitVec n) (hw : at' + k ≤ w)
    (h : at' + k ≤ lo ∨ lo + n ≤ at') : (putField r lo f).extractLsb' at' k = r.extractLsb' at' k := by
  apply BitVec.eq_of_getLsbD_eq
  intro i hi
  have h1 : at' + i < w := by omega
  have h2 : ¬ (lo ≤ at' + i ∧ at' + i < lo + n) := by omega
  rw [BitVec.getLsbD_extractLsb', BitVec.getLsbD_extractLsb', getLsbD_putField r lo f (at' + i) h1]
  simp [h2]

/-- A bit outside the field written is kept. -/
theorem getLsbD_putField_other {w n : Nat} (r : BitVec w) (lo : Nat) (f : BitVec n) (i : Nat) (hi : i < w)
    (h : i < lo ∨ lo + n ≤ i) : (putField r lo f).getLsbD i = r.getLsbD i := by
  have h2 : ¬ (lo ≤ i ∧ i < lo + n) := by omega
  rw [getLsbD_putField r lo f i hi]; simp [h2]

/-- Lane by lane, `Combine` takes a selected lane from the datum and keeps the other (R88). -/
theorem getLsbD_combine (old d : Half) (m : Lanes) (i : Nat) (hi : i < 16) :
    (combine old d m).getLsbD i
      = if (8 ≤ i ∧ m.hasHigh = true) ∨ (i < 8 ∧ m.hasLow = true) then d.getLsbD i else old.getLsbD i := by
  cases m <;>
    simp only [combine, Lanes.mask, Lanes.hasHigh, Lanes.hasLow, BitVec.getLsbD_or, BitVec.getLsbD_and,
      BitVec.getLsbD_not] <;>
    (have : i = 0 ∨ i = 1 ∨ i = 2 ∨ i = 3 ∨ i = 4 ∨ i = 5 ∨ i = 6 ∨ i = 7 ∨ i = 8 ∨ i = 9 ∨ i = 10 ∨ i = 11
        ∨ i = 12 ∨ i = 13 ∨ i = 14 ∨ i = 15 := by omega
     rcases this with h | h | h | h | h | h | h | h | h | h | h | h | h | h | h | h <;> subst h <;> simp)

/-- The bits of a word made of two bytes. -/
theorem getLsbD_bytes (hi lo : Byte) (i : Nat) :
    (hi ++ lo : Half).getLsbD i = if i < 8 then lo.getLsbD i else hi.getLsbD (i - 8) :=
  BitVec.getLsbD_append

/-- The bits of a command made of two words. -/
theorem getLsbD_halves (hi lo : Half) (i : Nat) :
    (hi ++ lo : Command).getLsbD i = if i < 16 then lo.getLsbD i else hi.getLsbD (i - 16) :=
  BitVec.getLsbD_append

/-- The bits of a composite address: the high field above the low word (R200). -/
theorem getLsbD_addr (hi : BitVec 6) (lo : Half) (i : Nat) :
    (hi ++ lo : Addr22).getLsbD i = if i < 16 then lo.getLsbD i else hi.getLsbD (i - 16) :=
  BitVec.getLsbD_append

/-- A word is its two bytes. -/
theorem half_bytes (d : Half) : (highByte d ++ lowByteOf d : Half) = d := by
  apply BitVec.eq_of_getLsbD_eq
  intro i hi
  rw [getLsbD_bytes]
  by_cases h : i < 8
  · simp [lowByteOf, h]
  · have h2 : i - 8 < 8 := by omega
    have h3 : 8 + (i - 8) = i := by omega
    simp [highByte, h, h2, h3]

theorem getLsbD_commandByte (w : Command) (k : Fin 4) (i : Nat) (hi : i < 8) :
    (commandByte w k).getLsbD i = w.getLsbD (24 - 8 * k.val + i) := by
  simp [commandByte, hi]

/-- A command is its four bytes, most significant first (R110). -/
theorem command_bytes (w : Command) :
    ((commandByte w 0 ++ commandByte w 1 : Half) ++ (commandByte w 2 ++ commandByte w 3 : Half) : Command) = w := by
  apply BitVec.eq_of_getLsbD_eq
  intro i hi
  rw [getLsbD_halves, getLsbD_bytes, getLsbD_bytes]
  split
  · split
    · rename_i h1 h2
      rw [getLsbD_commandByte w 3 i h2]
      exact congrArg w.getLsbD (show 24 - 8 * 3 + i = i by omega)
    · rename_i h1 h2
      rw [getLsbD_commandByte w 2 (i - 8) (by omega)]
      exact congrArg w.getLsbD (show 24 - 8 * 2 + (i - 8) = i by omega)
  · split
    · rename_i h1 h2
      rw [getLsbD_commandByte w 1 (i - 16) h2]
      exact congrArg w.getLsbD (show 24 - 8 * 1 + (i - 16) = i by omega)
    · rename_i h1 h2
      rw [getLsbD_commandByte w 0 (i - 16 - 8) (by omega)]
      exact congrArg w.getLsbD (show 24 - 8 * 0 + (i - 16 - 8) = i by omega)

end Sys2Proof.Machine
end

