-- ==== Sys2Proof/Laws/Memory.lean ====
section
/-!
SUPPORT. The sparse contents of planes and CLUTs: what a read gives after a write, the canonical form, and that every write
keeps it.
-/
namespace Sys2Proof.Machine

variable {α : Type}

@[simp] theorem Memory.get_nil (k : Nat) : Memory.get ([] : Memory α) k = none := rfl

@[simp] theorem Memory.get_put_same (m : Memory α) (k : Nat) (v : α) : Memory.get (Memory.put m k v) k = some v := by
  induction m with
  | nil => simp [Memory.put, Memory.get]
  | cons e rest ih =>
    obtain ⟨a, x⟩ := e
    by_cases h1 : k < a
    · simp [Memory.put, Memory.get, h1]
    · by_cases h2 : a = k
      · simp [Memory.put, Memory.get, h2]
      · simp [Memory.put, Memory.get, h1, h2, ih]

theorem Memory.get_put_other (m : Memory α) (k j : Nat) (v : α) (h : j ≠ k) :
    Memory.get (Memory.put m k v) j = Memory.get m j := by
  induction m with
  | nil => simp [Memory.put, Memory.get, Ne.symm h]
  | cons e rest ih =>
    obtain ⟨a, x⟩ := e
    by_cases h1 : k < a
    · simp [Memory.put, Memory.get, h1, Ne.symm h]
    · by_cases h2 : a = k
      · subst h2; simp [Memory.put, Memory.get, Ne.symm h]
      · simp only [Memory.put, h1, h2, if_false, Memory.get, ih]

theorem Memory.get_put (m : Memory α) (k j : Nat) (v : α) :
    Memory.get (Memory.put m k v) j = if j = k then some v else Memory.get m j := by
  by_cases h : j = k
  · subst h; simp
  · simp [h, Memory.get_put_other m k j v h]

@[simp] theorem Memory.wf_nil (b : Nat) : Memory.wf b ([] : Memory α) = true := rfl

theorem Memory.wfFrom_put (b lo k : Nat) (m : Memory α) (v : α) (hlo : lo ≤ k) (hk : k < b)
    (h : Memory.wfFrom lo b m = true) : Memory.wfFrom lo b (Memory.put m k v) = true := by
  induction m generalizing lo with
  | nil => simp [Memory.put, Memory.wfFrom, hlo, hk]
  | cons e rest ih =>
    obtain ⟨a, x⟩ := e
    simp only [Memory.wfFrom, Bool.and_eq_true, decide_eq_true_eq] at h
    obtain ⟨⟨ha, hb⟩, hr⟩ := h
    by_cases h1 : k < a
    · have : k + 1 ≤ a := h1
      simp [Memory.put, Memory.wfFrom, h1, hlo, hk, hb, hr, this]
    · by_cases h2 : a = k
      · subst h2; simp [Memory.put, Memory.wfFrom, hlo, hk, hr]
      · have h3 : a + 1 ≤ k := by omega
        simp [Memory.put, Memory.wfFrom, h1, h2, ha, hb, ih (a + 1) h3 hr]

/-- A write inside the bound keeps the canonical form. -/
theorem Memory.wf_put (b k : Nat) (m : Memory α) (v : α) (hk : k < b) (h : Memory.wf b m = true) :
    Memory.wf b (Memory.put m k v) = true :=
  Memory.wfFrom_put b 0 k m v (Nat.zero_le k) hk h

/-- Every entry of a written memory is the written one or an old one. -/
theorem Memory.mem_put (m : Memory α) (k : Nat) (v : α) (e : Nat × α) (h : e ∈ Memory.put m k v) :
    e = (k, v) ∨ e ∈ m := by
  induction m with
  | nil => simp_all [Memory.put]
  | cons f rest ih =>
    obtain ⟨a, x⟩ := f
    by_cases h1 : k < a
    · simp_all [Memory.put]
    · by_cases h2 : a = k
      · subst h2
        simp only [Memory.put, Nat.lt_irrefl, if_false, if_true, List.mem_cons] at h
        rcases h with h | h
        · exact .inl h
        · exact .inr (List.mem_cons_of_mem _ h)
      · simp only [Memory.put, h1, h2, if_false, List.mem_cons] at h
        rcases h with h | h
        · exact .inr (by simp [h])
        · rcases ih h with h | h
          · exact .inl h
          · exact .inr (List.mem_cons_of_mem _ h)

theorem Memory.get_none_of_wfFrom (lo b k : Nat) (m : Memory α) (h : Memory.wfFrom lo b m = true) (hk : k < lo) :
    Memory.get m k = none := by
  induction m generalizing lo with
  | nil => rfl
  | cons e rest ih =>
    obtain ⟨a, x⟩ := e
    simp only [Memory.wfFrom, Bool.and_eq_true, decide_eq_true_eq] at h
    obtain ⟨⟨ha, -⟩, hr⟩ := h
    have h2 : a ≠ k := by omega
    simp [Memory.get, h2, ih (a + 1) hr (by omega)]

/-- Nothing is written at or beyond the bound. -/
theorem Memory.get_none_of_bound (lo b k : Nat) (m : Memory α) (h : Memory.wfFrom lo b m = true) (hk : b ≤ k) :
    Memory.get m k = none := by
  induction m generalizing lo with
  | nil => rfl
  | cons e rest ih =>
    obtain ⟨a, x⟩ := e
    simp only [Memory.wfFrom, Bool.and_eq_true, decide_eq_true_eq] at h
    obtain ⟨⟨-, hb⟩, hr⟩ := h
    have h2 : a ≠ k := by omega
    simp [Memory.get, h2, ih (a + 1) hr]

end Sys2Proof.Machine
end

