-- ==== Sys2Proof/Laws/State.lean ====
section
/-!
SUPPORT. What each update of State leaves alone and what it writes: one lemma per field per update, each true by rfl, so
that no later proof unfolds a record update.
-/
namespace Sys2Proof.Machine

variable (s : State)

/-! ### setDisplay -/

@[simp] theorem setDisplay_config (c : Channel) (d : DisplayChannel) : (s.setDisplay c d).config = s.config := rfl
@[simp] theorem setDisplay_planeA (c : Channel) (d : DisplayChannel) : (s.setDisplay c d).planeA = s.planeA := rfl
@[simp] theorem setDisplay_planeB (c : Channel) (d : DisplayChannel) : (s.setDisplay c d).planeB = s.planeB := rfl
@[simp] theorem setDisplay_regs (c : Channel) (d : DisplayChannel) : (s.setDisplay c d).regs = s.regs := rfl
@[simp] theorem setDisplay_periph (c : Channel) (d : DisplayChannel) : (s.setDisplay c d).periph = s.periph := rfl
@[simp] theorem setDisplay_line (c : Channel) (d : DisplayChannel) : (s.setDisplay c d).line = s.line := rfl
@[simp] theorem setDisplay_now (c : Channel) (d : DisplayChannel) : (s.setDisplay c d).now = s.now := rfl
@[simp] theorem setDisplay_scanDue (c : Channel) (d : DisplayChannel) : (s.setDisplay c d).scanDue = s.scanDue := rfl
@[simp] theorem setDisplay_t0Armed (c : Channel) (d : DisplayChannel) : (s.setDisplay c d).t0Armed = s.t0Armed := rfl
@[simp] theorem setDisplay_t0Due (c : Channel) (d : DisplayChannel) : (s.setDisplay c d).t0Due = s.t0Due := rfl
@[simp] theorem setDisplay_irq (c : Channel) (d : DisplayChannel) : (s.setDisplay c d).irq = s.irq := rfl
@[simp] theorem setDisplay_videoOut (c : Channel) (d : DisplayChannel) : (s.setDisplay c d).videoOut = s.videoOut := rfl
@[simp] theorem setDisplay_uartOut (c : Channel) (d : DisplayChannel) : (s.setDisplay c d).uartOut = s.uartOut := rfl
@[simp] theorem setDisplay_walk (c : Channel) (d : DisplayChannel) : (s.setDisplay c d).walk = s.walk := rfl
@[simp] theorem setDisplay_agenda (c : Channel) (d : DisplayChannel) : (s.setDisplay c d).agenda = s.agenda := rfl
@[simp] theorem setDisplay_busOut (c : Channel) (d : DisplayChannel) : (s.setDisplay c d).busOut = s.busOut := rfl
@[simp] theorem setDisplay_log (c : Channel) (d : DisplayChannel) : (s.setDisplay c d).log = s.log := rfl
@[simp] theorem setDisplay_freeCount (c : Channel) (d : DisplayChannel) : (s.setDisplay c d).freeCount = s.freeCount := rfl
@[simp] theorem setDisplay_epoch (c : Channel) (d : DisplayChannel) : (s.setDisplay c d).epoch = s.epoch := rfl

/-! ### setPlane -/

@[simp] theorem setPlane_config (c : Channel) (p : Plane) : (s.setPlane c p).config = s.config := rfl
@[simp] theorem setPlane_chA (c : Channel) (p : Plane) : (s.setPlane c p).chA = s.chA := rfl
@[simp] theorem setPlane_chB (c : Channel) (p : Plane) : (s.setPlane c p).chB = s.chB := rfl
@[simp] theorem setPlane_regs (c : Channel) (p : Plane) : (s.setPlane c p).regs = s.regs := rfl
@[simp] theorem setPlane_periph (c : Channel) (p : Plane) : (s.setPlane c p).periph = s.periph := rfl
@[simp] theorem setPlane_line (c : Channel) (p : Plane) : (s.setPlane c p).line = s.line := rfl
@[simp] theorem setPlane_now (c : Channel) (p : Plane) : (s.setPlane c p).now = s.now := rfl
@[simp] theorem setPlane_scanDue (c : Channel) (p : Plane) : (s.setPlane c p).scanDue = s.scanDue := rfl
@[simp] theorem setPlane_t0Armed (c : Channel) (p : Plane) : (s.setPlane c p).t0Armed = s.t0Armed := rfl
@[simp] theorem setPlane_t0Due (c : Channel) (p : Plane) : (s.setPlane c p).t0Due = s.t0Due := rfl
@[simp] theorem setPlane_irq (c : Channel) (p : Plane) : (s.setPlane c p).irq = s.irq := rfl
@[simp] theorem setPlane_videoOut (c : Channel) (p : Plane) : (s.setPlane c p).videoOut = s.videoOut := rfl
@[simp] theorem setPlane_uartOut (c : Channel) (p : Plane) : (s.setPlane c p).uartOut = s.uartOut := rfl
@[simp] theorem setPlane_walk (c : Channel) (p : Plane) : (s.setPlane c p).walk = s.walk := rfl
@[simp] theorem setPlane_agenda (c : Channel) (p : Plane) : (s.setPlane c p).agenda = s.agenda := rfl
@[simp] theorem setPlane_busOut (c : Channel) (p : Plane) : (s.setPlane c p).busOut = s.busOut := rfl
@[simp] theorem setPlane_log (c : Channel) (p : Plane) : (s.setPlane c p).log = s.log := rfl
@[simp] theorem setPlane_freeCount (c : Channel) (p : Plane) : (s.setPlane c p).freeCount = s.freeCount := rfl
@[simp] theorem setPlane_epoch (c : Channel) (p : Plane) : (s.setPlane c p).epoch = s.epoch := rfl

/-! ### drawn -/

@[simp] theorem drawn_config (n : Nat) : (drawn s n).config = s.config := rfl
@[simp] theorem drawn_planeA (n : Nat) : (drawn s n).planeA = s.planeA := rfl
@[simp] theorem drawn_planeB (n : Nat) : (drawn s n).planeB = s.planeB := rfl
@[simp] theorem drawn_chA (n : Nat) : (drawn s n).chA = s.chA := rfl
@[simp] theorem drawn_chB (n : Nat) : (drawn s n).chB = s.chB := rfl
@[simp] theorem drawn_regs (n : Nat) : (drawn s n).regs = s.regs := rfl
@[simp] theorem drawn_periph (n : Nat) : (drawn s n).periph = s.periph := rfl
@[simp] theorem drawn_line (n : Nat) : (drawn s n).line = s.line := rfl
@[simp] theorem drawn_now (n : Nat) : (drawn s n).now = s.now := rfl
@[simp] theorem drawn_scanDue (n : Nat) : (drawn s n).scanDue = s.scanDue := rfl
@[simp] theorem drawn_t0Armed (n : Nat) : (drawn s n).t0Armed = s.t0Armed := rfl
@[simp] theorem drawn_t0Due (n : Nat) : (drawn s n).t0Due = s.t0Due := rfl
@[simp] theorem drawn_irq (n : Nat) : (drawn s n).irq = s.irq := rfl
@[simp] theorem drawn_videoOut (n : Nat) : (drawn s n).videoOut = s.videoOut := rfl
@[simp] theorem drawn_uartOut (n : Nat) : (drawn s n).uartOut = s.uartOut := rfl
@[simp] theorem drawn_walk (n : Nat) : (drawn s n).walk = s.walk := rfl
@[simp] theorem drawn_agenda (n : Nat) : (drawn s n).agenda = s.agenda := rfl
@[simp] theorem drawn_busOut (n : Nat) : (drawn s n).busOut = s.busOut := rfl
@[simp] theorem drawn_log (n : Nat) : (drawn s n).log = s.log := rfl
@[simp] theorem drawn_epoch (n : Nat) : (drawn s n).epoch = s.epoch := rfl

/-! ### assertLine -/

@[simp] theorem assertLine_config (n : IrqLine) (vec : Nat) : (assertLine s n vec).config = s.config := rfl
@[simp] theorem assertLine_planeA (n : IrqLine) (vec : Nat) : (assertLine s n vec).planeA = s.planeA := rfl
@[simp] theorem assertLine_planeB (n : IrqLine) (vec : Nat) : (assertLine s n vec).planeB = s.planeB := rfl
@[simp] theorem assertLine_chA (n : IrqLine) (vec : Nat) : (assertLine s n vec).chA = s.chA := rfl
@[simp] theorem assertLine_chB (n : IrqLine) (vec : Nat) : (assertLine s n vec).chB = s.chB := rfl
@[simp] theorem assertLine_regs (n : IrqLine) (vec : Nat) : (assertLine s n vec).regs = s.regs := rfl
@[simp] theorem assertLine_periph (n : IrqLine) (vec : Nat) : (assertLine s n vec).periph = s.periph := rfl
@[simp] theorem assertLine_line (n : IrqLine) (vec : Nat) : (assertLine s n vec).line = s.line := rfl
@[simp] theorem assertLine_now (n : IrqLine) (vec : Nat) : (assertLine s n vec).now = s.now := rfl
@[simp] theorem assertLine_scanDue (n : IrqLine) (vec : Nat) : (assertLine s n vec).scanDue = s.scanDue := rfl
@[simp] theorem assertLine_t0Armed (n : IrqLine) (vec : Nat) : (assertLine s n vec).t0Armed = s.t0Armed := rfl
@[simp] theorem assertLine_t0Due (n : IrqLine) (vec : Nat) : (assertLine s n vec).t0Due = s.t0Due := rfl
@[simp] theorem assertLine_videoOut (n : IrqLine) (vec : Nat) : (assertLine s n vec).videoOut = s.videoOut := rfl
@[simp] theorem assertLine_uartOut (n : IrqLine) (vec : Nat) : (assertLine s n vec).uartOut = s.uartOut := rfl
@[simp] theorem assertLine_walk (n : IrqLine) (vec : Nat) : (assertLine s n vec).walk = s.walk := rfl
@[simp] theorem assertLine_agenda (n : IrqLine) (vec : Nat) : (assertLine s n vec).agenda = s.agenda := rfl
@[simp] theorem assertLine_busOut (n : IrqLine) (vec : Nat) : (assertLine s n vec).busOut = s.busOut := rfl
@[simp] theorem assertLine_log (n : IrqLine) (vec : Nat) : (assertLine s n vec).log = s.log := rfl
@[simp] theorem assertLine_freeCount (n : IrqLine) (vec : Nat) : (assertLine s n vec).freeCount = s.freeCount := rfl
@[simp] theorem assertLine_epoch (n : IrqLine) (vec : Nat) : (assertLine s n vec).epoch = s.epoch := rfl

/-! ### deassertLine -/

@[simp] theorem deassertLine_config (n : IrqLine) : (deassertLine s n).config = s.config := rfl
@[simp] theorem deassertLine_planeA (n : IrqLine) : (deassertLine s n).planeA = s.planeA := rfl
@[simp] theorem deassertLine_planeB (n : IrqLine) : (deassertLine s n).planeB = s.planeB := rfl
@[simp] theorem deassertLine_chA (n : IrqLine) : (deassertLine s n).chA = s.chA := rfl
@[simp] theorem deassertLine_chB (n : IrqLine) : (deassertLine s n).chB = s.chB := rfl
@[simp] theorem deassertLine_regs (n : IrqLine) : (deassertLine s n).regs = s.regs := rfl
@[simp] theorem deassertLine_periph (n : IrqLine) : (deassertLine s n).periph = s.periph := rfl
@[simp] theorem deassertLine_line (n : IrqLine) : (deassertLine s n).line = s.line := rfl
@[simp] theorem deassertLine_now (n : IrqLine) : (deassertLine s n).now = s.now := rfl
@[simp] theorem deassertLine_scanDue (n : IrqLine) : (deassertLine s n).scanDue = s.scanDue := rfl
@[simp] theorem deassertLine_t0Armed (n : IrqLine) : (deassertLine s n).t0Armed = s.t0Armed := rfl
@[simp] theorem deassertLine_t0Due (n : IrqLine) : (deassertLine s n).t0Due = s.t0Due := rfl
@[simp] theorem deassertLine_videoOut (n : IrqLine) : (deassertLine s n).videoOut = s.videoOut := rfl
@[simp] theorem deassertLine_uartOut (n : IrqLine) : (deassertLine s n).uartOut = s.uartOut := rfl
@[simp] theorem deassertLine_walk (n : IrqLine) : (deassertLine s n).walk = s.walk := rfl
@[simp] theorem deassertLine_agenda (n : IrqLine) : (deassertLine s n).agenda = s.agenda := rfl
@[simp] theorem deassertLine_busOut (n : IrqLine) : (deassertLine s n).busOut = s.busOut := rfl
@[simp] theorem deassertLine_log (n : IrqLine) : (deassertLine s n).log = s.log := rfl
@[simp] theorem deassertLine_freeCount (n : IrqLine) : (deassertLine s n).freeCount = s.freeCount := rfl
@[simp] theorem deassertLine_epoch (n : IrqLine) : (deassertLine s n).epoch = s.epoch := rfl

/-! ### logEvent -/

@[simp] theorem logEvent_config (e : LogEvent) : (logEvent s e).config = s.config := rfl
@[simp] theorem logEvent_planeA (e : LogEvent) : (logEvent s e).planeA = s.planeA := rfl
@[simp] theorem logEvent_planeB (e : LogEvent) : (logEvent s e).planeB = s.planeB := rfl
@[simp] theorem logEvent_chA (e : LogEvent) : (logEvent s e).chA = s.chA := rfl
@[simp] theorem logEvent_chB (e : LogEvent) : (logEvent s e).chB = s.chB := rfl
@[simp] theorem logEvent_regs (e : LogEvent) : (logEvent s e).regs = s.regs := rfl
@[simp] theorem logEvent_periph (e : LogEvent) : (logEvent s e).periph = s.periph := rfl
@[simp] theorem logEvent_line (e : LogEvent) : (logEvent s e).line = s.line := rfl
@[simp] theorem logEvent_now (e : LogEvent) : (logEvent s e).now = s.now := rfl
@[simp] theorem logEvent_scanDue (e : LogEvent) : (logEvent s e).scanDue = s.scanDue := rfl
@[simp] theorem logEvent_t0Armed (e : LogEvent) : (logEvent s e).t0Armed = s.t0Armed := rfl
@[simp] theorem logEvent_t0Due (e : LogEvent) : (logEvent s e).t0Due = s.t0Due := rfl
@[simp] theorem logEvent_irq (e : LogEvent) : (logEvent s e).irq = s.irq := rfl
@[simp] theorem logEvent_videoOut (e : LogEvent) : (logEvent s e).videoOut = s.videoOut := rfl
@[simp] theorem logEvent_uartOut (e : LogEvent) : (logEvent s e).uartOut = s.uartOut := rfl
@[simp] theorem logEvent_walk (e : LogEvent) : (logEvent s e).walk = s.walk := rfl
@[simp] theorem logEvent_agenda (e : LogEvent) : (logEvent s e).agenda = s.agenda := rfl
@[simp] theorem logEvent_busOut (e : LogEvent) : (logEvent s e).busOut = s.busOut := rfl
@[simp] theorem logEvent_freeCount (e : LogEvent) : (logEvent s e).freeCount = s.freeCount := rfl
@[simp] theorem logEvent_epoch (e : LogEvent) : (logEvent s e).epoch = s.epoch := rfl

/-! ### returnHalf -/

@[simp] theorem returnHalf_config (d : Half) : (returnHalf s d).config = s.config := rfl
@[simp] theorem returnHalf_planeA (d : Half) : (returnHalf s d).planeA = s.planeA := rfl
@[simp] theorem returnHalf_planeB (d : Half) : (returnHalf s d).planeB = s.planeB := rfl
@[simp] theorem returnHalf_chA (d : Half) : (returnHalf s d).chA = s.chA := rfl
@[simp] theorem returnHalf_chB (d : Half) : (returnHalf s d).chB = s.chB := rfl
@[simp] theorem returnHalf_regs (d : Half) : (returnHalf s d).regs = s.regs := rfl
@[simp] theorem returnHalf_periph (d : Half) : (returnHalf s d).periph = s.periph := rfl
@[simp] theorem returnHalf_line (d : Half) : (returnHalf s d).line = s.line := rfl
@[simp] theorem returnHalf_now (d : Half) : (returnHalf s d).now = s.now := rfl
@[simp] theorem returnHalf_scanDue (d : Half) : (returnHalf s d).scanDue = s.scanDue := rfl
@[simp] theorem returnHalf_t0Armed (d : Half) : (returnHalf s d).t0Armed = s.t0Armed := rfl
@[simp] theorem returnHalf_t0Due (d : Half) : (returnHalf s d).t0Due = s.t0Due := rfl
@[simp] theorem returnHalf_irq (d : Half) : (returnHalf s d).irq = s.irq := rfl
@[simp] theorem returnHalf_videoOut (d : Half) : (returnHalf s d).videoOut = s.videoOut := rfl
@[simp] theorem returnHalf_uartOut (d : Half) : (returnHalf s d).uartOut = s.uartOut := rfl
@[simp] theorem returnHalf_walk (d : Half) : (returnHalf s d).walk = s.walk := rfl
@[simp] theorem returnHalf_agenda (d : Half) : (returnHalf s d).agenda = s.agenda := rfl
@[simp] theorem returnHalf_log (d : Half) : (returnHalf s d).log = s.log := rfl
@[simp] theorem returnHalf_freeCount (d : Half) : (returnHalf s d).freeCount = s.freeCount := rfl
@[simp] theorem returnHalf_epoch (d : Half) : (returnHalf s d).epoch = s.epoch := rfl

/-! ### setIp -/

@[simp] theorem setIp_config (t : Nat) : (setIp s t).config = s.config := rfl
@[simp] theorem setIp_planeA (t : Nat) : (setIp s t).planeA = s.planeA := rfl
@[simp] theorem setIp_planeB (t : Nat) : (setIp s t).planeB = s.planeB := rfl
@[simp] theorem setIp_chA (t : Nat) : (setIp s t).chA = s.chA := rfl
@[simp] theorem setIp_chB (t : Nat) : (setIp s t).chB = s.chB := rfl
@[simp] theorem setIp_regs (t : Nat) : (setIp s t).regs = s.regs := rfl
@[simp] theorem setIp_periph (t : Nat) : (setIp s t).periph = s.periph := rfl
@[simp] theorem setIp_line (t : Nat) : (setIp s t).line = s.line := rfl
@[simp] theorem setIp_now (t : Nat) : (setIp s t).now = s.now := rfl
@[simp] theorem setIp_scanDue (t : Nat) : (setIp s t).scanDue = s.scanDue := rfl
@[simp] theorem setIp_t0Armed (t : Nat) : (setIp s t).t0Armed = s.t0Armed := rfl
@[simp] theorem setIp_t0Due (t : Nat) : (setIp s t).t0Due = s.t0Due := rfl
@[simp] theorem setIp_irq (t : Nat) : (setIp s t).irq = s.irq := rfl
@[simp] theorem setIp_videoOut (t : Nat) : (setIp s t).videoOut = s.videoOut := rfl
@[simp] theorem setIp_uartOut (t : Nat) : (setIp s t).uartOut = s.uartOut := rfl
@[simp] theorem setIp_agenda (t : Nat) : (setIp s t).agenda = s.agenda := rfl
@[simp] theorem setIp_busOut (t : Nat) : (setIp s t).busOut = s.busOut := rfl
@[simp] theorem setIp_log (t : Nat) : (setIp s t).log = s.log := rfl
@[simp] theorem setIp_freeCount (t : Nat) : (setIp s t).freeCount = s.freeCount := rfl
@[simp] theorem setIp_epoch (t : Nat) : (setIp s t).epoch = s.epoch := rfl

/-! ### setStop -/

@[simp] theorem setStop_config : (setStop s).config = s.config := rfl
@[simp] theorem setStop_planeA : (setStop s).planeA = s.planeA := rfl
@[simp] theorem setStop_planeB : (setStop s).planeB = s.planeB := rfl
@[simp] theorem setStop_chA : (setStop s).chA = s.chA := rfl
@[simp] theorem setStop_chB : (setStop s).chB = s.chB := rfl
@[simp] theorem setStop_regs : (setStop s).regs = s.regs := rfl
@[simp] theorem setStop_periph : (setStop s).periph = s.periph := rfl
@[simp] theorem setStop_line : (setStop s).line = s.line := rfl
@[simp] theorem setStop_now : (setStop s).now = s.now := rfl
@[simp] theorem setStop_scanDue : (setStop s).scanDue = s.scanDue := rfl
@[simp] theorem setStop_t0Armed : (setStop s).t0Armed = s.t0Armed := rfl
@[simp] theorem setStop_t0Due : (setStop s).t0Due = s.t0Due := rfl
@[simp] theorem setStop_irq : (setStop s).irq = s.irq := rfl
@[simp] theorem setStop_videoOut : (setStop s).videoOut = s.videoOut := rfl
@[simp] theorem setStop_uartOut : (setStop s).uartOut = s.uartOut := rfl
@[simp] theorem setStop_agenda : (setStop s).agenda = s.agenda := rfl
@[simp] theorem setStop_busOut : (setStop s).busOut = s.busOut := rfl
@[simp] theorem setStop_log : (setStop s).log = s.log := rfl
@[simp] theorem setStop_freeCount : (setStop s).freeCount = s.freeCount := rfl
@[simp] theorem setStop_epoch : (setStop s).epoch = s.epoch := rfl

/-! ### setDcpReloaded -/

@[simp] theorem setDcpReloaded_config : (setDcpReloaded s).config = s.config := rfl
@[simp] theorem setDcpReloaded_planeA : (setDcpReloaded s).planeA = s.planeA := rfl
@[simp] theorem setDcpReloaded_planeB : (setDcpReloaded s).planeB = s.planeB := rfl
@[simp] theorem setDcpReloaded_chA : (setDcpReloaded s).chA = s.chA := rfl
@[simp] theorem setDcpReloaded_chB : (setDcpReloaded s).chB = s.chB := rfl
@[simp] theorem setDcpReloaded_regs : (setDcpReloaded s).regs = s.regs := rfl
@[simp] theorem setDcpReloaded_periph : (setDcpReloaded s).periph = s.periph := rfl
@[simp] theorem setDcpReloaded_line : (setDcpReloaded s).line = s.line := rfl
@[simp] theorem setDcpReloaded_now : (setDcpReloaded s).now = s.now := rfl
@[simp] theorem setDcpReloaded_scanDue : (setDcpReloaded s).scanDue = s.scanDue := rfl
@[simp] theorem setDcpReloaded_t0Armed : (setDcpReloaded s).t0Armed = s.t0Armed := rfl
@[simp] theorem setDcpReloaded_t0Due : (setDcpReloaded s).t0Due = s.t0Due := rfl
@[simp] theorem setDcpReloaded_irq : (setDcpReloaded s).irq = s.irq := rfl
@[simp] theorem setDcpReloaded_videoOut : (setDcpReloaded s).videoOut = s.videoOut := rfl
@[simp] theorem setDcpReloaded_uartOut : (setDcpReloaded s).uartOut = s.uartOut := rfl
@[simp] theorem setDcpReloaded_agenda : (setDcpReloaded s).agenda = s.agenda := rfl
@[simp] theorem setDcpReloaded_busOut : (setDcpReloaded s).busOut = s.busOut := rfl
@[simp] theorem setDcpReloaded_log : (setDcpReloaded s).log = s.log := rfl
@[simp] theorem setDcpReloaded_freeCount : (setDcpReloaded s).freeCount = s.freeCount := rfl
@[simp] theorem setDcpReloaded_epoch : (setDcpReloaded s).epoch = s.epoch := rfl

/-! ### armTimer0 -/

@[simp] theorem armTimer0_config : (armTimer0 s).config = s.config := rfl
@[simp] theorem armTimer0_planeA : (armTimer0 s).planeA = s.planeA := rfl
@[simp] theorem armTimer0_planeB : (armTimer0 s).planeB = s.planeB := rfl
@[simp] theorem armTimer0_chA : (armTimer0 s).chA = s.chA := rfl
@[simp] theorem armTimer0_chB : (armTimer0 s).chB = s.chB := rfl
@[simp] theorem armTimer0_regs : (armTimer0 s).regs = s.regs := rfl
@[simp] theorem armTimer0_periph : (armTimer0 s).periph = s.periph := rfl
@[simp] theorem armTimer0_line : (armTimer0 s).line = s.line := rfl
@[simp] theorem armTimer0_now : (armTimer0 s).now = s.now := rfl
@[simp] theorem armTimer0_scanDue : (armTimer0 s).scanDue = s.scanDue := rfl
@[simp] theorem armTimer0_irq : (armTimer0 s).irq = s.irq := rfl
@[simp] theorem armTimer0_videoOut : (armTimer0 s).videoOut = s.videoOut := rfl
@[simp] theorem armTimer0_uartOut : (armTimer0 s).uartOut = s.uartOut := rfl
@[simp] theorem armTimer0_walk : (armTimer0 s).walk = s.walk := rfl
@[simp] theorem armTimer0_agenda : (armTimer0 s).agenda = s.agenda := rfl
@[simp] theorem armTimer0_busOut : (armTimer0 s).busOut = s.busOut := rfl
@[simp] theorem armTimer0_log : (armTimer0 s).log = s.log := rfl
@[simp] theorem armTimer0_freeCount : (armTimer0 s).freeCount = s.freeCount := rfl
@[simp] theorem armTimer0_epoch : (armTimer0 s).epoch = s.epoch := rfl

/-! ### startWalk -/

@[simp] theorem startWalk_config (c : Channel) (m : Mode) : (startWalk s c m).config = s.config := rfl
@[simp] theorem startWalk_planeA (c : Channel) (m : Mode) : (startWalk s c m).planeA = s.planeA := rfl
@[simp] theorem startWalk_planeB (c : Channel) (m : Mode) : (startWalk s c m).planeB = s.planeB := rfl
@[simp] theorem startWalk_chA (c : Channel) (m : Mode) : (startWalk s c m).chA = s.chA := rfl
@[simp] theorem startWalk_chB (c : Channel) (m : Mode) : (startWalk s c m).chB = s.chB := rfl
@[simp] theorem startWalk_regs (c : Channel) (m : Mode) : (startWalk s c m).regs = s.regs := rfl
@[simp] theorem startWalk_periph (c : Channel) (m : Mode) : (startWalk s c m).periph = s.periph := rfl
@[simp] theorem startWalk_line (c : Channel) (m : Mode) : (startWalk s c m).line = s.line := rfl
@[simp] theorem startWalk_now (c : Channel) (m : Mode) : (startWalk s c m).now = s.now := rfl
@[simp] theorem startWalk_scanDue (c : Channel) (m : Mode) : (startWalk s c m).scanDue = s.scanDue := rfl
@[simp] theorem startWalk_t0Armed (c : Channel) (m : Mode) : (startWalk s c m).t0Armed = s.t0Armed := rfl
@[simp] theorem startWalk_t0Due (c : Channel) (m : Mode) : (startWalk s c m).t0Due = s.t0Due := rfl
@[simp] theorem startWalk_irq (c : Channel) (m : Mode) : (startWalk s c m).irq = s.irq := rfl
@[simp] theorem startWalk_videoOut (c : Channel) (m : Mode) : (startWalk s c m).videoOut = s.videoOut := rfl
@[simp] theorem startWalk_uartOut (c : Channel) (m : Mode) : (startWalk s c m).uartOut = s.uartOut := rfl
@[simp] theorem startWalk_agenda (c : Channel) (m : Mode) : (startWalk s c m).agenda = s.agenda := rfl
@[simp] theorem startWalk_busOut (c : Channel) (m : Mode) : (startWalk s c m).busOut = s.busOut := rfl
@[simp] theorem startWalk_log (c : Channel) (m : Mode) : (startWalk s c m).log = s.log := rfl
@[simp] theorem startWalk_freeCount (c : Channel) (m : Mode) : (startWalk s c m).freeCount = s.freeCount := rfl
@[simp] theorem startWalk_epoch (c : Channel) (m : Mode) : (startWalk s c m).epoch = s.epoch := rfl

/-! ### advance -/

@[simp] theorem advance_config : (advance s).config = s.config := rfl
@[simp] theorem advance_planeA : (advance s).planeA = s.planeA := rfl
@[simp] theorem advance_planeB : (advance s).planeB = s.planeB := rfl
@[simp] theorem advance_chA : (advance s).chA = s.chA := rfl
@[simp] theorem advance_chB : (advance s).chB = s.chB := rfl
@[simp] theorem advance_regs : (advance s).regs = s.regs := rfl
@[simp] theorem advance_periph : (advance s).periph = s.periph := rfl
@[simp] theorem advance_line : (advance s).line = s.line := rfl
@[simp] theorem advance_now : (advance s).now = s.now := rfl
@[simp] theorem advance_scanDue : (advance s).scanDue = s.scanDue := rfl
@[simp] theorem advance_t0Armed : (advance s).t0Armed = s.t0Armed := rfl
@[simp] theorem advance_t0Due : (advance s).t0Due = s.t0Due := rfl
@[simp] theorem advance_irq : (advance s).irq = s.irq := rfl
@[simp] theorem advance_videoOut : (advance s).videoOut = s.videoOut := rfl
@[simp] theorem advance_uartOut : (advance s).uartOut = s.uartOut := rfl
@[simp] theorem advance_agenda : (advance s).agenda = s.agenda := rfl
@[simp] theorem advance_busOut : (advance s).busOut = s.busOut := rfl
@[simp] theorem advance_log : (advance s).log = s.log := rfl
@[simp] theorem advance_epoch : (advance s).epoch = s.epoch := rfl

/-! ### finishLine -/

@[simp] theorem finishLine_config : (finishLine s).config = s.config := rfl
@[simp] theorem finishLine_planeA : (finishLine s).planeA = s.planeA := rfl
@[simp] theorem finishLine_planeB : (finishLine s).planeB = s.planeB := rfl
@[simp] theorem finishLine_chA : (finishLine s).chA = s.chA := rfl
@[simp] theorem finishLine_chB : (finishLine s).chB = s.chB := rfl
@[simp] theorem finishLine_regs : (finishLine s).regs = s.regs := rfl
@[simp] theorem finishLine_periph : (finishLine s).periph = s.periph := rfl
@[simp] theorem finishLine_now : (finishLine s).now = s.now := rfl
@[simp] theorem finishLine_t0Armed : (finishLine s).t0Armed = s.t0Armed := rfl
@[simp] theorem finishLine_t0Due : (finishLine s).t0Due = s.t0Due := rfl
@[simp] theorem finishLine_irq : (finishLine s).irq = s.irq := rfl
@[simp] theorem finishLine_videoOut : (finishLine s).videoOut = s.videoOut := rfl
@[simp] theorem finishLine_uartOut : (finishLine s).uartOut = s.uartOut := rfl
@[simp] theorem finishLine_walk : (finishLine s).walk = s.walk := rfl
@[simp] theorem finishLine_agenda : (finishLine s).agenda = s.agenda := rfl
@[simp] theorem finishLine_busOut : (finishLine s).busOut = s.busOut := rfl
@[simp] theorem finishLine_log : (finishLine s).log = s.log := rfl
@[simp] theorem finishLine_freeCount : (finishLine s).freeCount = s.freeCount := rfl
@[simp] theorem finishLine_epoch : (finishLine s).epoch = s.epoch := rfl

/-! ### What the updates write -/

@[simp] theorem display_a : s.display .a = s.chA := rfl
@[simp] theorem display_b : s.display .b = s.chB := rfl
@[simp] theorem plane_a : s.plane .a = s.planeA := rfl
@[simp] theorem plane_b : s.plane .b = s.planeB := rfl
@[simp] theorem setDisplay_a_chA (d : DisplayChannel) : (s.setDisplay .a d).chA = d := rfl
@[simp] theorem setDisplay_a_chB (d : DisplayChannel) : (s.setDisplay .a d).chB = s.chB := rfl
@[simp] theorem setDisplay_b_chA (d : DisplayChannel) : (s.setDisplay .b d).chA = s.chA := rfl
@[simp] theorem setDisplay_b_chB (d : DisplayChannel) : (s.setDisplay .b d).chB = d := rfl
@[simp] theorem setPlane_a_planeA (p : Plane) : (s.setPlane .a p).planeA = p := rfl
@[simp] theorem setPlane_a_planeB (p : Plane) : (s.setPlane .a p).planeB = s.planeB := rfl
@[simp] theorem setPlane_b_planeA (p : Plane) : (s.setPlane .b p).planeA = s.planeA := rfl
@[simp] theorem setPlane_b_planeB (p : Plane) : (s.setPlane .b p).planeB = p := rfl
@[simp] theorem drawn_freeCount (n : Nat) : (drawn s n).freeCount = s.freeCount + n := rfl
@[simp] theorem logEvent_log (e : LogEvent) : (logEvent s e).log = s.log ++ [e] := rfl
@[simp] theorem returnHalf_busOut (d : Half) : (returnHalf s d).busOut = s.busOut ++ [d] := rfl
@[simp] theorem setIp_walk (t : Nat) : (setIp s t).walk = { s.walk with ip := t } := rfl
@[simp] theorem setStop_walk : (setStop s).walk = { s.walk with stop := true } := rfl
@[simp] theorem setDcpReloaded_walk : (setDcpReloaded s).walk = { s.walk with dcpReloaded := true } := rfl
@[simp] theorem armTimer0_t0Armed : (armTimer0 s).t0Armed = true := rfl
@[simp] theorem armTimer0_t0Due :
    (armTimer0 s).t0Due = s.now + timerCompare s.periph.t0 * s.config.timerTick := rfl
@[simp] theorem advance_walk : (advance s).walk = { s.walk with ip := s.walk.ip + 2, count := s.walk.count + 1 } := rfl
@[simp] theorem advance_freeCount : (advance s).freeCount = s.freeCount + 4 := rfl
@[simp] theorem finishLine_line : (finishLine s).line = (s.line + 1) % s.config.totalLines := rfl
@[simp] theorem finishLine_scanDue : (finishLine s).scanDue = s.now + s.config.linePeriod := rfl

/-! ### The channel accessors under the updates -/

@[simp] theorem display_setDisplay_same (c : Channel) (d : DisplayChannel) : (s.setDisplay c d).display c = d := by
  cases c <;> rfl

theorem display_setDisplay_other (c e : Channel) (d : DisplayChannel) (h : e ≠ c) :
    (s.setDisplay c d).display e = s.display e := by
  cases c <;> cases e <;> simp_all

@[simp] theorem setDisplay_display (c : Channel) : s.setDisplay c (s.display c) = s := by cases c <;> rfl

@[simp] theorem plane_setPlane_same (c : Channel) (p : Plane) : (s.setPlane c p).plane c = p := by cases c <;> rfl

theorem plane_setPlane_other (c e : Channel) (p : Plane) (h : e ≠ c) : (s.setPlane c p).plane e = s.plane e := by
  cases c <;> cases e <;> simp_all

@[simp] theorem plane_setDisplay (c e : Channel) (d : DisplayChannel) : (s.setDisplay c d).plane e = s.plane e := by
  cases e <;> rfl

@[simp] theorem display_setPlane (c e : Channel) (p : Plane) : (s.setPlane c p).display e = s.display e := by
  cases e <;> rfl

@[simp] theorem chan_setDisplay (c : Channel) (d : DisplayChannel) : (s.setDisplay c d).chan = s.chan := rfl
@[simp] theorem chan_logEvent (e : LogEvent) : (logEvent s e).chan = s.chan := rfl
@[simp] theorem chan_advance : (advance s).chan = s.chan := rfl

end Sys2Proof.Machine
end

