-- ==== Sys2Proof/Laws/Ops.lean ====
section
/-!
SUPPORT. Each shared operation, once: everything it can do and what it leaves alone.
-/
namespace Sys2Proof.Machine

/-! ## Split address registers -/

/-- A bit outside a field lies below it or above it. -/
theorem not_inField (lo n i : Nat) (h : inField lo n i = false) : i < lo ∨ lo + n ≤ i := by
  simp only [inField, Bool.and_eq_false_iff, decide_eq_false_iff_not] at h
  omega

/-- `SetVSR` writes `vsr` and the high field in DCR, and nothing else of the channel (R201). -/
theorem setVsr_frame (d : DisplayChannel) (l : DisplayBits) (a : Nat) :
    d.setVsr l a = { d with vsr := (d.setVsr l a).vsr, dcr := (d.setVsr l a).dcr }
    ∧ ∀ i, i < 16 → inField l.vsrHigh.val 6 i = false → (d.setVsr l a).dcr.getLsbD i = d.dcr.getLsbD i :=
  ⟨rfl, fun i h1 h2 => getLsbD_putField_other d.dcr _ _ i h1 (not_inField _ _ i h2)⟩

/-- `SetDCP` writes `dcp` and the high field in DDR, and nothing else of the channel (R203). -/
theorem setDcp_frame (d : DisplayChannel) (l : DisplayBits) (a : Nat) :
    d.setDcp l a = { d with dcp := (d.setDcp l a).dcp, ddr := (d.setDcp l a).ddr }
    ∧ ∀ i, i < 16 → inField l.dcpHigh.val 6 i = false → (d.setDcp l a).ddr.getLsbD i = d.ddr.getLsbD i :=
  ⟨rfl, fun i h1 h2 => getLsbD_putField_other d.ddr _ _ i h1 (not_inField _ _ i h2)⟩

/-! ## Plane memory -/

/-- A byte after one byte of a plane was stored (R85). -/
theorem planeByte_storeByte (s : State) (c e : Channel) (a k draw : Nat) (b : Byte) :
    planeByte (storeByte s c a b) e k draw
      = if e = c ∧ k = a ∧ k < s.config.planeBytes then b else planeByte s e k draw := by
  by_cases he : e = c
  · subst he
    by_cases hk : k = a
    · subst hk
      by_cases hb : k < s.config.planeBytes <;> simp [planeByte, storedByte, storeByte, hb]
    · simp [planeByte, storedByte, storeByte, hk, Memory.get_put_other _ a k b hk]
  · simp [planeByte, storedByte, storeByte, he, plane_setPlane_other s c e _ he]

/-- A byte after a CPU store of one byte: as of a plain store, for a store beyond the plane is of no byte of it (R81, R85). -/
theorem planeByte_storeInPlane (s : State) (c e : Channel) (a k draw : Nat) (b : Byte) :
    planeByte (storeInPlane s c a b) e k draw
      = if e = c ∧ k = a ∧ k < s.config.planeBytes then b else planeByte s e k draw := by
  by_cases h : a < s.config.planeBytes
  · rw [storeInPlane, if_pos h, planeByte_storeByte]
  · rw [storeInPlane, if_neg h, if_neg]
    rintro ⟨-, rfl, hk⟩
    exact h hk

/-- A CPU store changes one plane and nothing else, and keeps every plane canonical (R81). -/
theorem storeInPlane_spec (s : State) (c : Channel) (a : Nat) (b : Byte) :
    storeInPlane s c a b = s.setPlane c ((storeInPlane s c a b).plane c)
    ∧ ∀ e, Memory.wf s.config.planeBytes (s.plane e) = true →
        Memory.wf s.config.planeBytes ((storeInPlane s c a b).plane e) = true := by
  by_cases h : a < s.config.planeBytes
  · rw [storeInPlane, if_pos h]
    refine ⟨by cases c <;> rfl, fun e he => ?_⟩
    by_cases hc : e = c
    · subst hc; simpa [storeByte] using Memory.wf_put _ _ _ b h he
    · simpa [storeByte, plane_setPlane_other s c e _ hc] using he
  · rw [storeInPlane, if_neg h]
    exact ⟨by cases c <;> rfl, fun e he => he⟩

/-- The planes as two states with the same written contents, size and reset contents read them. -/
theorem planeByte_congr (s t : State) (hA : t.planeA = s.planeA) (hB : t.planeB = s.planeB)
    (hc : t.config = s.config) (he : t.epoch = s.epoch) (c : Channel) (a draw : Nat) :
    planeByte t c a draw = planeByte s c a draw := by
  cases c <;> simp [planeByte, storedByte, hA, hB, hc, he]

@[simp] theorem planeByte_setDisplay (s : State) (c e : Channel) (d : DisplayChannel) (a draw : Nat) :
    planeByte (s.setDisplay c d) e a draw = planeByte s e a draw :=
  planeByte_congr s (s.setDisplay c d) rfl rfl rfl rfl e a draw

/-! ## CLUT -/

/-- A CLUT entry after one entry of a channel was written (R252). -/
theorem clutEntry_write (s : State) (c e : Channel) (k i : Byte) (p : Pixel) :
    clutEntry (s.setDisplay c { s.display c with clut := Memory.put (s.display c).clut k.toNat p }) e i
      = if e = c ∧ i = k then p else clutEntry s e i := by
  by_cases he : e = c
  · subst he
    by_cases hk : i = k
    · subst hk; simp [clutEntry]
    · have : i.toNat ≠ k.toNat := fun h => hk (BitVec.eq_of_toNat_eq h)
      simp [clutEntry, hk, Memory.get_put_other _ _ _ p this]
  · simp [clutEntry, he, display_setDisplay_other s c e _ he]

/-! ## Interrupt lines -/

@[simp] theorem irq_assertLine (s : State) (n : IrqLine) (vec : Nat) :
    (assertLine s n vec).irq = s.irq.set n.val ⟨true, BitVec.ofNat 8 vec⟩ n.isLt := rfl

/-- The named line is asserted with the vector given; every other line is as before (R351). -/
theorem assertLine_port (s : State) (n k : IrqLine) (vec : Nat) :
    (assertLine s n vec).irq[k] = if k = n then ⟨true, BitVec.ofNat 8 vec⟩ else s.irq[k] := by
  simp only [irq_assertLine, Fin.getElem_fin, Vector.getElem_set]
  by_cases h : k = n
  · simp [h]
  · have : n.val ≠ k.val := fun e => h (Fin.ext e.symm)
    simp [h, this]

/-- The named line drops and keeps its vector; every other line is as before (R352). -/
theorem deassertLine_port (s : State) (n k : IrqLine) :
    (deassertLine s n).irq[k] = if k = n then ⟨false, (s.irq[n]).vector⟩ else s.irq[k] := by
  simp only [deassertLine, Fin.getElem_fin, Vector.getElem_set]
  by_cases h : k = n
  · simp [h]
  · have : n.val ≠ k.val := fun e => h (Fin.ext e.symm)
    simp [h, this]

/-- A selector names no line exactly when it is 0, and else the line of its number (R63). -/
theorem selectLine_spec (sel : BitVec 3) :
    (sel = 0 ∧ selectLine sel = none) ∨ (∃ n : IrqLine, n.number = sel.toNat ∧ selectLine sel = some n) := by
  by_cases h : sel.toNat = 0
  · exact .inl ⟨BitVec.eq_of_toNat_eq (by simpa using h), by simp [selectLine, h]⟩
  · refine .inr ⟨⟨sel.toNat - 1, by have := sel.isLt; omega⟩, ?_, by simp [selectLine, h]⟩
    simp only [IrqLine.number]; omega

/-- What asserting through a selector can do: nothing for selector 0, else assert that one line (R63, R351). -/
theorem assertSelected_cases (s : State) (sel : BitVec 3) (base : Nat) :
    (sel = 0 ∧ assertSelected s sel base = s)
    ∨ (∃ n : IrqLine, n.number = sel.toNat ∧ assertSelected s sel base = assertLine s n (base + sel.toNat)) := by
  rcases selectLine_spec sel with ⟨h, e⟩ | ⟨n, h, e⟩
  · exact .inl ⟨h, by simp [assertSelected, e]⟩
  · exact .inr ⟨n, h, by simp [assertSelected, e, h]⟩

/-- What deasserting through a selector can do: nothing for selector 0, else drop that one line (R63, R352). -/
theorem deassertSelected_cases (s : State) (sel : BitVec 3) :
    (sel = 0 ∧ deassertSelected s sel = s)
    ∨ (∃ n : IrqLine, n.number = sel.toNat ∧ deassertSelected s sel = deassertLine s n) := by
  rcases selectLine_spec sel with ⟨h, e⟩ | ⟨n, h, e⟩
  · exact .inl ⟨h, by simp [deassertSelected, e]⟩
  · exact .inr ⟨n, h, by simp [deassertSelected, e]⟩

/-- Asserting through a selector changes nothing but the interrupt lines. -/
theorem assertSelected_frame (s : State) (sel : BitVec 3) (base : Nat) :
    assertSelected s sel base = { s with irq := (assertSelected s sel base).irq } := by
  rcases assertSelected_cases s sel base with ⟨-, e⟩ | ⟨n, -, e⟩ <;> rw [e]
  rfl

/-- Deasserting through a selector changes nothing but the interrupt lines. -/
theorem deassertSelected_frame (s : State) (sel : BitVec 3) :
    deassertSelected s sel = { s with irq := (deassertSelected s sel).irq } := by
  rcases deassertSelected_cases s sel with ⟨-, e⟩ | ⟨n, -, e⟩ <;> rw [e]
  rfl

/-! ## Registers written by REGISTER SET -/

/-- What a gated write can do: its owner's stream writes, the other channel's changes nothing (R250). -/
theorem writeOwned_cases (s : State) (o : Channel) (f : DisplayRegs → DisplayRegs) :
    (s.chan = o ∧ writeOwned s o f = { s with regs := f s.regs }) ∨ (s.chan ≠ o ∧ writeOwned s o f = s) := by
  by_cases h : s.chan = o
  · exact .inl ⟨h, by simp [writeOwned, h]⟩
  · exact .inr ⟨h, by simp [writeOwned, h]⟩

/-- A gated write changes nothing but the single display registers. -/
theorem writeOwned_frame (s : State) (o : Channel) (f : DisplayRegs → DisplayRegs) :
    writeOwned s o f = { s with regs := (writeOwned s o f).regs } := by
  rcases writeOwned_cases s o f with ⟨-, e⟩ | ⟨-, e⟩ <;> rw [e]

/-- A write of a channel's own copy touches that channel's registers only (R250). -/
theorem writeOwn_spec (s : State) (f : DisplayChannel → DisplayChannel) :
    (writeOwn s f).display s.chan = f (s.display s.chan)
    ∧ (∀ e, e ≠ s.chan → (writeOwn s f).display e = s.display e)
    ∧ writeOwn s f = { s with chA := (writeOwn s f).chA, chB := (writeOwn s f).chB } :=
  ⟨by simp [writeOwn], fun e h => by simp [writeOwn, display_setDisplay_other s s.chan e _ h], rfl⟩

/-! ## The walker -/

/-- What the end of an invocation can do: in DCA mode, unless DCP was reloaded, it writes DCP back; then the walker's
registers cease to exist (R216, R48). -/
theorem endWalk_cases (s : State) :
    (s.walk.mode = .dca ∧ s.walk.dcpReloaded = false
      ∧ endWalk s = { setDcp s s.chan (2 * s.walk.ip) with walk := Walker.idle })
    ∨ ((s.walk.mode = .ica ∨ s.walk.dcpReloaded = true) ∧ endWalk s = { s with walk := Walker.idle }) := by
  by_cases h : s.walk.mode = .dca ∧ s.walk.dcpReloaded = false
  · exact .inl ⟨h.1, h.2, by simp [endWalk, writeBack, h]⟩
  · refine .inr ⟨?_, by simp [endWalk, writeBack, h]⟩
    cases hm : s.walk.mode
    · exact .inl rfl
    · cases hd : s.walk.dcpReloaded
      · exact absurd ⟨hm, hd⟩ h
      · exact .inr rfl

/-- What channel 1's turn can do: start its walk, or finish the line (R323, R326). -/
theorem walkB_cases (s : State) (m : Mode) :
    ((s.display .b).walkEnable s.config.bits m = true ∧ walkB s m = startWalk s .b m)
    ∨ ((s.display .b).walkEnable s.config.bits m = false ∧ walkB s m = finishLine s) := by
  cases h : (s.display .b).walkEnable s.config.bits m
  · exact .inr ⟨rfl, by unfold walkB; rw [h]; rfl⟩
  · exact .inl ⟨rfl, by unfold walkB; rw [h]; rfl⟩

/-- What channel 0's turn can do: start its walk, or pass to channel 1 (R323, R326). -/
theorem walkA_cases (s : State) (m : Mode) :
    ((s.display .a).walkEnable s.config.bits m = true ∧ walkA s m = startWalk s .a m)
    ∨ ((s.display .a).walkEnable s.config.bits m = false ∧ walkA s m = walkB s m) := by
  cases h : (s.display .a).walkEnable s.config.bits m
  · exact .inr ⟨rfl, by unfold walkA; rw [h]; rfl⟩
  · exact .inl ⟨rfl, by unfold walkA; rw [h]; rfl⟩

/-- What the scan event does before its first command, by line (R321, R327). -/
theorem beginScan_cases (s : State) :
    (lineProcessed s = false ∧ beginScan s = finishLine s)
    ∨ (lineProcessed s = true ∧ s.line = 0 ∧ beginScan s = walkA (setDisplayActive s false) .ica)
    ∨ (lineProcessed s = true ∧ 0 < s.line ∧ s.line < Config.firstActiveLine ∧ beginScan s = finishLine s)
    ∨ (lineProcessed s = true ∧ Config.firstActiveLine ≤ s.line
        ∧ beginScan s = walkA (renderLine (setDisplayActive s true)) .dca) := by
  unfold beginScan
  cases hp : lineProcessed s
  · exact .inl ⟨rfl, by simp⟩
  · by_cases h0 : s.line = 0
    · exact .inr (.inl ⟨rfl, h0, by simp [h0]⟩)
    · by_cases h22 : Config.firstActiveLine ≤ s.line
      · exact .inr (.inr (.inr ⟨rfl, h22, by simp [h0, h22]⟩))
      · exact .inr (.inr (.inl ⟨rfl, by omega, by omega, by simp [h0, h22]⟩))

end Sys2Proof.Machine
end

