-- ==== Sys2Proof/Laws/Bus.lean ====
section
/-!
SUPPORT. What a CPU access of plane memory and one by bus address can do.
-/
namespace Sys2Proof.Machine

/-! ## Plane accesses -/

/-- What a CPU read of a plane word can do (R84, R85, 93 U21). -/
theorem readPlane_cases (s : State) (c : Channel) (w : Nat) :
    (2 * w < s.config.planeBytes ∧ readPlane s c w = .next (returnHalf (drawn s 2) (planeWord s c w s.freeCount)))
    ∨ (s.config.planeBytes ≤ 2 * w ∧ readPlane s c w = .refused .accessNotRouted) := by
  by_cases h : 2 * w < s.config.planeBytes
  · exact .inl ⟨h, by simp [readPlane, planeRouted, Lanes.hasHigh, h]⟩
  · have h2 : ¬ 2 * w + 1 < s.config.planeBytes := by omega
    exact .inr ⟨by omega, by simp [readPlane, planeRouted, h, h2]⟩

/-- What a CPU write of a plane word can do (R85, 93 U21). -/
theorem writePlane_cases (s : State) (c : Channel) (w : Nat) (m : Lanes) (d : Half) :
    (planeRouted s w m = true ∧ writePlane s c w m d = .next (planeWrite s c w m d))
    ∨ (planeRouted s w m = false ∧ writePlane s c w m d = .refused .accessNotRouted) := by
  cases h : planeRouted s w m
  · exact .inr ⟨rfl, by simp [writePlane, h]⟩
  · exact .inl ⟨rfl, by simp [writePlane, h]⟩

/-- Two changes of one plane in turn are one change of it. -/
theorem setPlane_trans (s t u : State) (c : Channel) (h : t = s.setPlane c (t.plane c)) (k : u = t.setPlane c (u.plane c)) :
    u = s.setPlane c (u.plane c) := by
  rw [h] at k
  rw [k]
  cases c <;> rfl

/-- A CPU write of a plane changes that plane and nothing else, and keeps every plane canonical (R81, R85). -/
theorem planeWrite_spec (s : State) (c : Channel) (w : Nat) (m : Lanes) (d : Half) :
    planeWrite s c w m d = s.setPlane c ((planeWrite s c w m d).plane c)
    ∧ ∀ e, Memory.wf s.config.planeBytes (s.plane e) = true →
        Memory.wf s.config.planeBytes ((planeWrite s c w m d).plane e) = true := by
  have one := storeInPlane_spec s c
  have config : ∀ a b, (storeInPlane s c a b).config = s.config := fun a b => by rw [(one a b).1]; rfl
  have two := fun a b => storeInPlane_spec (storeInPlane s c (2 * w) (highByte d)) c a b
  cases m
  · exact one _ _
  · exact one _ _
  · refine ⟨?_, fun e he => ?_⟩
    · exact setPlane_trans s _ _ c (one _ _).1 (two _ _).1
    · have h := (two (2 * w + 1) (lowByteOf d)).2 e
      rw [config] at h
      exact h ((one _ _).2 e he)

/-! ## The address map -/

/-- A bus address is routed to the one region that holds it, at the word its offset from the region's base names (R96). -/
theorem route_some (c : Config) (address : Nat) (r : BusRegion) (w : Nat) (h : route c address = some (r, w)) :
    address = regionBase c r + 2 * w ∧ 2 * w < regionBytes c r
    ∧ ∀ q, inRegion c address q = true → q = r := by
  unfold route at h
  split at h
  · rename_i q hq
    simp only [Option.some.injEq, Prod.mk.injEq] at h
    obtain ⟨rfl, rfl⟩ := h
    have hm : ∀ p, p ∈ regionsAt c address ↔ inRegion c address p = true := by
      intro p
      simp only [regionsAt, List.mem_filter, and_iff_right_iff_imp]
      intro _
      cases p with
      | plane e => cases e <;> simp
      | mcd212 => simp
      | periph => simp
    have hr : inRegion c address q = true := (hm q).mp (by simp [hq])
    refine ⟨?_, ?_, fun p hp => by simpa [hq] using (hm p).mpr hp⟩ <;>
      simp only [inRegion, Bool.and_eq_true, decide_eq_true_eq] at hr <;> omega
  · cases h

end Sys2Proof.Machine
end

