-- ==== Sys2Proof/Laws/Step.lean ====
section
/-!
SUPPORT. What a step can do, once: inside a walk, one command; between scan events, one agent's move.
-/
namespace Sys2Proof.Machine

theorem step_running (s : State) (h : s.walk.running = true) : step s = commandStep s := by simp [step, h]

theorem step_idle (s : State) (h : s.walk.running = false) : step s = agentStep s := by simp [step, h]

/-- If a command step answers `next t`, the command it fetched answered a state that `t` follows from. -/
theorem commandStep_next (s t : State) (h : commandStep s = .next t) :
    ∃ u, exec (nextCommand s) (advance s) = .next u ∧ t = afterCommand u := by
  unfold commandStep at h
  split at h
  · rename_i u hu
    cases h
    exact ⟨u, hu, rfl⟩
  · cases h
  · cases h

/-- What an agent's step can do: an external event that is scheduled before the block's next event, or that event. -/
theorem agentStep_cases (s : State) :
    (∃ x rest, s.agenda = x :: rest ∧ externalFirst s x = true
        ∧ agentStep s = runExternal { s with now := max s.now x.due, agenda := rest } x.event)
    ∨ ((∀ x rest, s.agenda = x :: rest → externalFirst s x = false) ∧ agentStep s = .next (runEvent s)) := by
  unfold agentStep
  cases ha : s.agenda with
  | nil => exact .inr ⟨fun x rest hx => (List.cons_ne_nil x rest hx.symm).elim, rfl⟩
  | cons x rest =>
    cases hx : externalFirst s x with
    | true => exact .inl ⟨x, rest, rfl, hx, by simp [hx]⟩
    | false =>
      refine .inr ⟨fun y r hy => ?_, by simp [hx]⟩
      cases hy
      exact hx

/-- The block's own event is Timer0's or the scan event's. -/
theorem runEvent_cases (s : State) :
    (timer0First s = true ∧ runEvent s = fireTimer0 s) ∨ (timer0First s = false ∧ runEvent s = fireScan s) := by
  unfold runEvent
  cases timer0First s
  · exact .inr ⟨rfl, rfl⟩
  · exact .inl ⟨rfl, rfl⟩

/-- After a command the walk goes on, or it ends and the event goes on. -/
theorem afterCommand_cases (s : State) :
    (walkOver s = false ∧ afterCommand s = s)
    ∨ (walkOver s = true ∧ afterCommand s = afterWalk (endWalk s) s.walk.chan s.walk.mode) := by
  unfold afterCommand
  cases walkOver s
  · exact .inl ⟨rfl, rfl⟩
  · exact .inr ⟨rfl, rfl⟩

end Sys2Proof.Machine
end

