-- ==== Sys2Proof/Laws/Exec.lean ====
section
/-!
SUPPORT. What a command can write, once for all commands, and what rendering, the timer and the status read can write.
-/
namespace Sys2Proof.Machine

/-! ## Lines asserted and dropped through a selector, port by port -/

/-- A line after an assertion through a selector (R63, R351). -/
theorem assertSelected_port (s : State) (sel : BitVec 3) (base : Nat) (k : IrqLine) :
    (assertSelected s sel base).irq[k]
      = if k.number = sel.toNat then ⟨true, BitVec.ofNat 8 (base + k.number)⟩ else s.irq[k] := by
  rcases assertSelected_cases s sel base with ⟨h, e⟩ | ⟨n, h, e⟩ <;> rw [e]
  · subst h
    have : k.number ≠ 0 := by simp [IrqLine.number]
    simp [this]
  · rw [assertLine_port]
    by_cases hk : k = n
    · subst hk; simp [h]
    · have : k.number ≠ sel.toNat := by
        rw [← h]
        intro e
        simp only [IrqLine.number] at e
        exact hk (Fin.ext (by omega))
      simp [hk, this]

/-- A line after one was dropped through a selector (R63, R352). -/
theorem deassertSelected_port (s : State) (sel : BitVec 3) (k : IrqLine) :
    (deassertSelected s sel).irq[k]
      = if k.number = sel.toNat then ⟨false, (s.irq[k]).vector⟩ else s.irq[k] := by
  rcases deassertSelected_cases s sel with ⟨h, e⟩ | ⟨n, h, e⟩ <;> rw [e]
  · subst h
    have : k.number ≠ 0 := by simp [IrqLine.number]
    simp [this]
  · rw [deassertLine_port]
    by_cases hk : k = n
    · subst hk; simp [h]
    · have : k.number ≠ sel.toNat := by
        rw [← h]
        intro e
        simp only [IrqLine.number] at e
        exact hk (Fin.ext (by omega))
      simp [hk, this]

/-! ## Commands -/

/-- INTERRUPT writes channel 1's registers and the lines, and nothing else (R240). -/
theorem raiseInterrupt_frame (s : State) :
    raiseInterrupt s = { s with chB := (raiseInterrupt s).chB, irq := (raiseInterrupt s).irq } := by
  unfold raiseInterrupt
  simp only
  split
  · rw [assertSelected_frame]; rfl
  · rfl

/-- What a command can write at all: the display registers, the lines, the walker's registers and the log (R217). -/
theorem exec_frame (i : Instr) (s t : State) (h : exec i s = .next t) :
    t = { s with chA := t.chA, chB := t.chB, regs := t.regs, irq := t.irq, walk := t.walk, log := t.log } := by
  cases i <;> cases h <;> first
    | rfl
    | rw [writeOwned_frame]
    | rw [raiseInterrupt_frame]

/-! ## Rendering -/

/-- Rendering one channel writes that channel's VSR and DCR, the log and the count of draws (R290). -/
theorem renderState_frame (s : State) (c : Channel) :
    renderState s c
      = { s.setDisplay c { s.display c with
            vsr := ((renderState s c).display c).vsr, dcr := ((renderState s c).display c).dcr } with
          log := (renderState s c).log, freeCount := s.freeCount + Config.linePixels } := by
  unfold renderState
  simp only
  split <;> cases c <;> rfl

/-- Rendering a line writes the two VSRs, the output, the log and the count of draws (R325). -/
theorem renderLine_frame (s : State) :
    renderLine s
      = { s with
          chA := { s.chA with vsr := (renderLine s).chA.vsr, dcr := (renderLine s).chA.dcr }
          chB := { s.chB with vsr := (renderLine s).chB.vsr, dcr := (renderLine s).chB.dcr }
          videoOut := (renderLine s).videoOut, log := (renderLine s).log
          freeCount := s.freeCount + Config.linePixels + Config.linePixels } := by
  unfold renderLine
  simp only
  rw [renderState_frame (renderState s .a) .b, renderState_frame s .a]
  rfl

/-! ## The composite -/

/-- Every function of two lines is a composite, on any list of pairs of lines (R305). -/
theorem compose_realises (f : List Pixel → List Pixel → Vector Pixel 768) (pairs : List (List Pixel × List Pixel)) :
    ∃ k, ∀ p ∈ pairs, compose k p.1 p.2 = (f p.1 p.2).toList := by
  refine ⟨.table (pairs.map fun p => ⟨p.1, p.2, f p.1 p.2⟩), fun p hp => ?_⟩
  have h : ∃ r, compositeRow (pairs.map fun p => (⟨p.1, p.2, f p.1 p.2⟩ : CompositeRow)) p.1 p.2 = some r := by
    rw [← Option.isSome_iff_exists, compositeRow, List.find?_isSome]
    exact ⟨_, List.mem_map_of_mem hp, by simp⟩
  obtain ⟨r, hr⟩ := h
  have hm := List.mem_of_find?_eq_some hr
  have he := List.find?_some hr
  obtain ⟨q, -, rfl⟩ := List.mem_map.mp hm
  simp only [Bool.and_eq_true, beq_iff_eq] at he
  simp [compose, hr, he.1, he.2]

/-! ## Timer0 and the status read -/

/-- The Timer0 event writes timer0, TSR, the lines and its own schedule (R173). -/
theorem timer0Event_frame (s : State) :
    timer0Event s
      = { s with periph := (timer0Event s).periph, irq := (timer0Event s).irq, t0Armed := true,
                 t0Due := (timer0Event s).t0Due } := by
  unfold timer0Event armTimer0
  simp only
  rw [assertSelected_frame]

/-- A write of TSR changes TSR and the lines (R175). -/
theorem writeTimerStatus_frame (s : State) (ones : Byte) :
    writeTimerStatus s ones
      = { s with periph := s.periph.clearStatus ones, irq := (writeTimerStatus s ones).irq } := by
  unfold writeTimerStatus
  simp only
  split
  · rw [deassertSelected_frame]
  · rfl

/-- The status read's effect is on channel 1's status and the lines (R192). -/
theorem acknowledgeInterrupts_frame (s : State) :
    acknowledgeInterrupts s
      = { s with chB := (clearInterruptBits s).chB, irq := (acknowledgeInterrupts s).irq } := by
  unfold acknowledgeInterrupts
  simp only
  rw [deassertSelected_frame (deassertSelected _ _), deassertSelected_frame (clearInterruptBits s)]
  rfl

end Sys2Proof.Machine
end

