-- ==== Sys2Proof/Laws/PerInstr.lean ====
section
/-!
SUPPORT. Statements about every command, one lemma per constructor, and the fields of a word just encoded.
-/
namespace Sys2Proof

@[simp] theorem cmdOpcode_mkCommand (op : Byte) (x : Operand) : cmdOpcode (mkCommand op x) = op := by
  apply BitVec.eq_of_getLsbD_eq
  intro i hi
  have h : (mkCommand op x).getLsbD (24 + i) = op.getLsbD i := by
    have e : (op ++ x : Command).getLsbD (24 + i) = if 24 + i < 24 then x.getLsbD (24 + i) else op.getLsbD (24 + i - 24) :=
      BitVec.getLsbD_append
    have h1 : ¬ (24 + i < 24) := by omega
    have h2 : 24 + i - 24 = i := by omega
    rw [mkCommand, e, if_neg h1, h2]
  rw [cmdOpcode, BitVec.getLsbD_extractLsb', h]
  simp [hi]

@[simp] theorem cmdOperand_mkCommand (op : Byte) (x : Operand) : cmdOperand (mkCommand op x) = x := by
  apply BitVec.eq_of_getLsbD_eq
  intro i hi
  have h : (mkCommand op x).getLsbD (0 + i) = x.getLsbD i := by
    have e : (op ++ x : Command).getLsbD (0 + i) = if 0 + i < 24 then x.getLsbD (0 + i) else op.getLsbD (0 + i - 24) :=
      BitVec.getLsbD_append
    have h1 : 0 + i < 24 := by omega
    have h2 : 0 + i = i := by omega
    rw [mkCommand, e, if_pos h1, h2]
  rw [cmdOperand, BitVec.getLsbD_extractLsb', h]
  simp [hi]

/-- A word is its opcode byte and its operand (30 R110). -/
theorem mkCommand_fields (w : Command) : mkCommand (cmdOpcode w) (cmdOperand w) = w := by
  apply BitVec.eq_of_getLsbD_eq
  intro i hi
  have e : (cmdOpcode w ++ cmdOperand w : Command).getLsbD i
      = if i < 24 then (cmdOperand w).getLsbD i else (cmdOpcode w).getLsbD (i - 24) := BitVec.getLsbD_append
  rw [mkCommand, e]
  by_cases h : i < 24
  · simp [cmdOperand, h]
  · have h2 : i - 24 < 8 := by omega
    have h3 : 24 + (i - 24) = i := by omega
    simp [cmdOpcode, h, h2, h3]

namespace Laws

/-- The opcode byte of a command's canonical word matches a row of the opcode table with its mnemonic (30 R114, R120). -/
def EncodedOpcode.Statement (i : Instr) : Prop :=
  i.wellFormed = true →
    ∃ r ∈ opcodeTable, r.mnemonic = i.mnemonic ∧ cmdOpcode (encode i) &&& cmdOpcode r.mask = cmdOpcode r.pattern

/-- The statement for a command whose opcode byte is `op`. -/
theorem EncodedOpcode.of_opcode (i : Instr) (op : Byte) (x : Operand) (he : encode i = mkCommand op x)
    (h : ∃ r ∈ opcodeTable, r.mnemonic = i.mnemonic ∧ op &&& cmdOpcode r.mask = cmdOpcode r.pattern) :
    EncodedOpcode.Statement i := by
  intro _
  rw [he, cmdOpcode_mkCommand]
  exact h

theorem EncodedOpcode.unassigned_row (reg : Byte) (h : unassignedOpcode reg = true) :
    ∃ r ∈ opcodeTable, r.mnemonic = "REGSET_UNASSIGNED" ∧ reg &&& cmdOpcode r.mask = cmdOpcode r.pattern := by
  revert reg
  decide

theorem EncodedOpcode.clut_row (slot : BitVec 6) :
    ∃ r ∈ opcodeTable, r.mnemonic = "SET_CLUT"
      ∧ (RegName.clut slot).number &&& cmdOpcode r.mask = cmdOpcode r.pattern := by
  revert slot
  decide

theorem EncodedOpcode.rc_row (n : BitVec 3) :
    ∃ r ∈ opcodeTable, r.mnemonic = "SET_RC" ∧ (RegName.rc n).number &&& cmdOpcode r.mask = cmdOpcode r.pattern := by
  revert n
  decide

theorem EncodedOpcode.stop : EncodedOpcode.Statement .stop :=
  EncodedOpcode.of_opcode _ _ _ rfl (by simp only [Instr.mnemonic]; decide)

theorem EncodedOpcode.nop : EncodedOpcode.Statement .nop :=
  EncodedOpcode.of_opcode _ _ _ rfl (by simp only [Instr.mnemonic]; decide)

theorem EncodedOpcode.reloadDcp (addr : Addr21) : EncodedOpcode.Statement (.reloadDcp addr) :=
  EncodedOpcode.of_opcode _ _ _ rfl (by simp only [Instr.mnemonic]; decide)

theorem EncodedOpcode.reloadDcpInert : EncodedOpcode.Statement .reloadDcpInert :=
  EncodedOpcode.of_opcode _ _ _ rfl (by simp only [Instr.mnemonic]; decide)

theorem EncodedOpcode.reloadDcpStop (addr : Addr21) : EncodedOpcode.Statement (.reloadDcpStop addr) :=
  EncodedOpcode.of_opcode _ _ _ rfl (by simp only [Instr.mnemonic]; decide)

theorem EncodedOpcode.reloadIca (addr : Addr21) : EncodedOpcode.Statement (.reloadIca addr) :=
  EncodedOpcode.of_opcode _ _ _ rfl (by simp only [Instr.mnemonic]; decide)

theorem EncodedOpcode.reloadVsr (addr : Addr21) : EncodedOpcode.Statement (.reloadVsr addr) :=
  EncodedOpcode.of_opcode _ _ _ rfl (by simp only [Instr.mnemonic]; decide)

theorem EncodedOpcode.reloadVsrStop (addr : Addr21) : EncodedOpcode.Statement (.reloadVsrStop addr) :=
  EncodedOpcode.of_opcode _ _ _ rfl (by simp only [Instr.mnemonic]; decide)

theorem EncodedOpcode.interrupt : EncodedOpcode.Statement .interrupt :=
  EncodedOpcode.of_opcode _ _ _ rfl (by simp only [Instr.mnemonic]; decide)

theorem EncodedOpcode.regsetUnassigned (reg : Byte) : EncodedOpcode.Statement (.regsetUnassigned reg) :=
  fun h => EncodedOpcode.of_opcode _ _ _ rfl (EncodedOpcode.unassigned_row reg h) h

theorem EncodedOpcode.reloadDisplayParameters (cm : Bool) (dp : BitVec 4) : EncodedOpcode.Statement (.reloadDisplayParameters cm dp) :=
  EncodedOpcode.of_opcode _ _ _ rfl (by simp only [Instr.mnemonic]; decide)

theorem EncodedOpcode.setClut (slot : BitVec 6) (value : Operand) : EncodedOpcode.Statement (.setClut slot value) :=
  EncodedOpcode.of_opcode _ _ _ rfl (EncodedOpcode.clut_row slot)

theorem EncodedOpcode.setIcm (value : Operand) : EncodedOpcode.Statement (.setIcm value) :=
  EncodedOpcode.of_opcode _ _ _ rfl (by simp only [Instr.mnemonic]; decide)

theorem EncodedOpcode.setTcr (value : Operand) : EncodedOpcode.Statement (.setTcr value) :=
  EncodedOpcode.of_opcode _ _ _ rfl (by simp only [Instr.mnemonic]; decide)

theorem EncodedOpcode.setPor (value : Operand) : EncodedOpcode.Statement (.setPor value) :=
  EncodedOpcode.of_opcode _ _ _ rfl (by simp only [Instr.mnemonic]; decide)

theorem EncodedOpcode.setClutBank (bank : BitVec 2) : EncodedOpcode.Statement (.setClutBank bank) :=
  EncodedOpcode.of_opcode _ _ _ rfl (by simp only [Instr.mnemonic]; decide)

theorem EncodedOpcode.setTca (value : Operand) : EncodedOpcode.Statement (.setTca value) :=
  EncodedOpcode.of_opcode _ _ _ rfl (by simp only [Instr.mnemonic]; decide)

theorem EncodedOpcode.setTcb (value : Operand) : EncodedOpcode.Statement (.setTcb value) :=
  EncodedOpcode.of_opcode _ _ _ rfl (by simp only [Instr.mnemonic]; decide)

theorem EncodedOpcode.setMca (value : Operand) : EncodedOpcode.Statement (.setMca value) :=
  EncodedOpcode.of_opcode _ _ _ rfl (by simp only [Instr.mnemonic]; decide)

theorem EncodedOpcode.setMcb (value : Operand) : EncodedOpcode.Statement (.setMcb value) :=
  EncodedOpcode.of_opcode _ _ _ rfl (by simp only [Instr.mnemonic]; decide)

theorem EncodedOpcode.setDyuva (value : Operand) : EncodedOpcode.Statement (.setDyuva value) :=
  EncodedOpcode.of_opcode _ _ _ rfl (by simp only [Instr.mnemonic]; decide)

theorem EncodedOpcode.setDyuvb (value : Operand) : EncodedOpcode.Statement (.setDyuvb value) :=
  EncodedOpcode.of_opcode _ _ _ rfl (by simp only [Instr.mnemonic]; decide)

theorem EncodedOpcode.setCurpos (value : Operand) : EncodedOpcode.Statement (.setCurpos value) :=
  EncodedOpcode.of_opcode _ _ _ rfl (by simp only [Instr.mnemonic]; decide)

theorem EncodedOpcode.setCurcnt (value : Operand) : EncodedOpcode.Statement (.setCurcnt value) :=
  EncodedOpcode.of_opcode _ _ _ rfl (by simp only [Instr.mnemonic]; decide)

theorem EncodedOpcode.setCurpat (index : BitVec 4) (word : Half) : EncodedOpcode.Statement (.setCurpat index word) :=
  EncodedOpcode.of_opcode _ _ _ rfl (by simp only [Instr.mnemonic]; decide)

theorem EncodedOpcode.setRc (n : BitVec 3) (value : Operand) : EncodedOpcode.Statement (.setRc n value) :=
  EncodedOpcode.of_opcode _ _ _ rfl (EncodedOpcode.rc_row n)

theorem EncodedOpcode.setBackdrop (value : Operand) : EncodedOpcode.Statement (.setBackdrop value) :=
  EncodedOpcode.of_opcode _ _ _ rfl (by simp only [Instr.mnemonic]; decide)

theorem EncodedOpcode.setMha (value : Operand) : EncodedOpcode.Statement (.setMha value) :=
  EncodedOpcode.of_opcode _ _ _ rfl (by simp only [Instr.mnemonic]; decide)

theorem EncodedOpcode.setMhb (value : Operand) : EncodedOpcode.Statement (.setMhb value) :=
  EncodedOpcode.of_opcode _ _ _ rfl (by simp only [Instr.mnemonic]; decide)

theorem EncodedOpcode.setWfa (value : Operand) : EncodedOpcode.Statement (.setWfa value) :=
  EncodedOpcode.of_opcode _ _ _ rfl (by simp only [Instr.mnemonic]; decide)

theorem EncodedOpcode.setWfb (value : Operand) : EncodedOpcode.Statement (.setWfb value) :=
  EncodedOpcode.of_opcode _ _ _ rfl (by simp only [Instr.mnemonic]; decide)

end Laws

end Sys2Proof
end

