-- ==== Sys2Proof/Laws/Periph.lean ====
section
/-!
SUPPORT. Registers of the peripheral page by name: what reading gives after storing, and what one lane of a write can do.
-/
namespace Sys2Proof.Machine

/-! ## The two halves of a 24-bit address counter (R57) -/

theorem counterHigh_putHigh (x : BitVec 24) (v : Byte) : (putField x 16 v).extractLsb' 16 8 = v :=
  extract_putField_same _ _ _ (by omega)

theorem counterLow_putLow (x : BitVec 24) (v : Half) : (putField x 0 v).extractLsb' 0 16 = v :=
  extract_putField_same _ _ _ (by omega)

theorem counterLow_putHigh (x : BitVec 24) (v : Byte) : (putField x 16 v).extractLsb' 0 16 = x.extractLsb' 0 16 := by
  apply BitVec.eq_of_getLsbD_eq
  intro i hi
  simp only [BitVec.getLsbD_extractLsb']
  rw [getLsbD_putField_other _ _ _ _ (by omega) (by omega)]

theorem counterHigh_putLow (x : BitVec 24) (v : Half) : (putField x 0 v).extractLsb' 16 8 = x.extractLsb' 16 8 := by
  apply BitVec.eq_of_getLsbD_eq
  intro i hi
  simp only [BitVec.getLsbD_extractLsb']
  rw [getLsbD_putField_other _ _ _ _ (by omega) (by omega)]

/-! ## One block of several -/

theorem updateDma_get (p : Peripherals) (j k : Fin 2) (f : DmaBlock → DmaBlock) :
    (p.updateDma j f).dma[k] = if k = j then f p.dma[j] else p.dma[k] := by
  simp only [Peripherals.updateDma, Fin.getElem_fin, Vector.getElem_set]
  by_cases h : k = j
  · simp [h]
  · have : ¬ j.val = k.val := fun e => h (Fin.ext e.symm)
    simp [h, this]

theorem updateMmu_get (p : Peripherals) (j k : Fin 8) (f : MmuDescriptor → MmuDescriptor) :
    (p.updateMmu j f).mmu[k] = if k = j then f p.mmu[j] else p.mmu[k] := by
  simp only [Peripherals.updateMmu, Fin.getElem_fin, Vector.getElem_set]
  by_cases h : k = j
  · simp [h]
  · have : ¬ j.val = k.val := fun e => h (Fin.ext e.symm)
    simp [h, this]

/-! ## Reading after storing (R141, R142) -/

theorem readByte_storeByte (p : Peripherals) (r q : ByteReg) (v : Byte) :
    (p.storeByte r v).readByte q = if q = r then v else p.readByte q := by
  cases r <;> cases q <;> first
    | rfl
    | (simp only [Peripherals.storeByte, Peripherals.readByte, updateDma_get, updateMmu_get]
       split <;> simp_all [counterHigh_putHigh])

theorem readWord_storeByte (p : Peripherals) (r : ByteReg) (q : WordReg) (v : Byte) :
    (p.storeByte r v).readWord q = p.readWord q := by
  cases r <;> cases q <;> first
    | rfl
    | (simp only [Peripherals.storeByte, Peripherals.readWord, updateDma_get, updateMmu_get]
       split <;> simp_all [counterLow_putHigh])

theorem readWord_storeWord (p : Peripherals) (r q : WordReg) (v : Half) :
    (p.storeWord r v).readWord q = if q = r then v else p.readWord q := by
  cases r <;> cases q <;> first
    | rfl
    | (simp only [Peripherals.storeWord, Peripherals.readWord, updateDma_get, updateMmu_get]
       split <;> simp_all [counterLow_putLow])

theorem readByte_storeWord (p : Peripherals) (r : WordReg) (q : ByteReg) (v : Half) :
    (p.storeWord r v).readByte q = p.readByte q := by
  cases r <;> cases q <;> first
    | rfl
    | (simp only [Peripherals.storeWord, Peripherals.readByte, updateDma_get, updateMmu_get]
       split <;> simp_all [counterHigh_putLow])

/-! ## One lane of a write (R88, R142, R146, R175) -/

/-- What a lane's write can do: nothing, the transmit register's echo, the timer status's clearing, or plain storage. -/
theorem writeLane_cases (s : State) (selected : Bool) (r : Option ByteReg) (v : Byte) :
    ((selected = false ∨ r = none) ∧ writeLane s selected r v = s)
    ∨ (selected = true ∧ r = some .uartThr ∧ writeLane s selected r v = writeUartThr s v)
    ∨ (selected = true ∧ r = some .tsr ∧ writeLane s selected r v = writeTimerStatus s v)
    ∨ ∃ q, selected = true ∧ r = some q ∧ q ≠ .uartThr ∧ q ≠ .tsr
        ∧ writeLane s selected r v = { s with periph := s.periph.storeByte q v } := by
  cases r with
  | none => exact .inl ⟨.inr rfl, rfl⟩
  | some q =>
    cases selected
    · exact .inl ⟨.inl rfl, rfl⟩
    · by_cases h1 : q = .uartThr
      · exact .inr (.inl ⟨rfl, by rw [h1], by rw [h1]; rfl⟩)
      · by_cases h2 : q = .tsr
        · exact .inr (.inr (.inl ⟨rfl, by rw [h2], by rw [h2]; rfl⟩))
        · refine .inr (.inr (.inr ⟨q, rfl, rfl, h1, h2, ?_⟩))
          simp only [writeLane, if_true, writeByteReg]

/-- A lane's write leaves everything but the peripheral block, the lines and the UART output alone. -/
theorem writeLane_frame (s : State) (selected : Bool) (r : Option ByteReg) (v : Byte) :
    writeLane s selected r v
      = { s with
          periph := (writeLane s selected r v).periph
          irq := (writeLane s selected r v).irq
          uartOut := (writeLane s selected r v).uartOut } := by
  rcases writeLane_cases s selected r v with ⟨-, e⟩ | ⟨-, -, e⟩ | ⟨-, -, e⟩ | ⟨q, -, -, -, -, e⟩ <;> rw [e]
  · unfold writeUartThr
    simp only
    split <;> rfl
  · rw [writeTimerStatus_frame]

end Sys2Proof.Machine
end

