-- ==== Sys2Proof/Tests/Slice0.lean ====
section
/-!
SUPPORT. The model's own tests. Expected values come from the spec: its worked examples and its test vectors
(spec/95_test_vectors.md, cited as 95), never from a run of the model.
-/
namespace Sys2Proof.Tests

open Sys2Proof.Machine

/-! ## Well-formedness: each check refuses an ill-formed term -/

theorem test_wellFormed_refuses_assigned_register : (Instr.regsetUnassigned 0xC0).wellFormed = false := by decide

theorem test_validIn_refuses_ica_commands_in_dca :
    (Instr.reloadDcp 0).validIn .dca = false ∧ (Instr.reloadIca 0).validIn .dca = false := by decide

theorem test_validIn_refuses_dca_commands_in_ica :
    Instr.reloadDcpInert.validIn .ica = false ∧ (Instr.reloadVsr 0).validIn .ica = false := by decide

/-! ## Decoding, each word written out from its encoding -/

/-- 95 2.1. -/
theorem test_decode_stop : decode RegsetMap.default .ica 0x00000000 = .stop := by decide

/-- 95 2.1. -/
theorem test_decode_stop_aliases : decode RegsetMap.default .dca 0x0FFFFFFF = .stop := by decide

/-- 95 2.1. -/
theorem test_decode_nop : decode RegsetMap.default .ica 0x1FFFFFFF = .nop := by decide

/-- 95 2.1: operand bits 23:21 dropped. -/
theorem test_decode_reloadDcp : decode RegsetMap.default .ica 0x2FE01000 = .reloadDcp 0x001000 := by decide

/-- 95 2.1. -/
theorem test_decode_reloadDcpInert : decode RegsetMap.default .dca 0x2FE01000 = .reloadDcpInert := by decide

/-- 95 2.1: largest address. -/
theorem test_decode_reloadDcpStop : decode RegsetMap.default .ica 0x301FFFFF = .reloadDcpStop 0x1FFFFF := by decide

/-- 95 2.1. -/
theorem test_decode_reloadIca : decode RegsetMap.default .ica 0x40000801 = .reloadIca 0x000801 := by decide

/-- 95 2.1. -/
theorem test_decode_reloadVsr : decode RegsetMap.default .dca 0x40000801 = .reloadVsr 0x000801 := by decide

/-- 95 2.1: op 0x5A aliases 0x50. -/
theorem test_decode_reloadVsrStop : decode RegsetMap.default .ica 0x5A002000 = .reloadVsrStop 0x002000 := by decide

/-- 95 2.1. -/
theorem test_decode_interrupt : decode RegsetMap.default .dca 0x6F123456 = .interrupt := by decide

/-- 95 2.1. -/
theorem test_decode_regsetUnassigned : decode RegsetMap.default .ica 0x70123456 = .regsetUnassigned 0x70 := by decide

/-- 95 2.1. -/
theorem test_decode_regsetUnassigned_low_end : decode RegsetMap.default .ica 0x77FFFFFF = .regsetUnassigned 0x77 := by decide

/-- 95 2.1. -/
theorem test_decode_regsetUnassigned_gaps : decode RegsetMap.default .ica 0xC5000000 = .regsetUnassigned 0xC5 := by decide

/-- 95 2.1. -/
theorem test_decode_regsetUnassigned_high : decode RegsetMap.default .dca 0xDD000000 = .regsetUnassigned 0xDD := by decide

/-- 95 2.1. -/
theorem test_decode_regsetUnassigned_top : decode RegsetMap.default .dca 0xFFFFFFFF = .regsetUnassigned 0xFF := by decide

/-- 95 2.1. -/
theorem test_decode_reloadDisplayParameters : decode RegsetMap.default .ica 0x78000012 = .reloadDisplayParameters true 2 := by decide

/-- 95 2.1. -/
theorem test_decode_reloadDisplayParameters_alias : decode RegsetMap.default .ica 0x7FFFFFE5 = .reloadDisplayParameters false 5 := by decide

/-- 95 2.1. -/
theorem test_decode_setClut : decode RegsetMap.default .ica 0x80FFFFFF = .setClut 0 0xFFFFFF := by decide

/-- 95 2.1. -/
theorem test_decode_setClut_last : decode RegsetMap.default .ica 0xBF000001 = .setClut 63 0x000001 := by decide

/-- 45 R253. -/
theorem test_decode_setIcm : decode RegsetMap.default .ica 0xC0000101 = .setIcm 0x000101 := by decide

/-- 45 R254. -/
theorem test_decode_setTcr : decode RegsetMap.default .ica 0xC1800000 = .setTcr 0x800000 := by decide

/-- 45 R255. -/
theorem test_decode_setPor : decode RegsetMap.default .ica 0xC2000001 = .setPor 0x000001 := by decide

/-- 95 2.1. -/
theorem test_decode_setClutBank : decode RegsetMap.default .ica 0xC3FFFFFE = .setClutBank 2 := by decide

/-- 45 R257. -/
theorem test_decode_setTca : decode RegsetMap.default .ica 0xC4FCFCFC = .setTca 0xFCFCFC := by decide

/-- 95 2.7. -/
theorem test_decode_setTcb : decode RegsetMap.default .dca 0xC6123456 = .setTcb 0x123456 := by decide

/-- 45 R259. -/
theorem test_decode_setMca : decode RegsetMap.default .ica 0xC7030303 = .setMca 0x030303 := by decide

/-- 45 R260. -/
theorem test_decode_setMcb : decode RegsetMap.default .ica 0xC9030303 = .setMcb 0x030303 := by decide

/-- 45 R261. -/
theorem test_decode_setDyuva : decode RegsetMap.default .ica 0xCA108080 = .setDyuva 0x108080 := by decide

/-- 45 R262. -/
theorem test_decode_setDyuvb : decode RegsetMap.default .ica 0xCB108080 = .setDyuvb 0x108080 := by decide

/-- 45 R263. -/
theorem test_decode_setCurpos : decode RegsetMap.default .ica 0xCD064032 = .setCurpos 0x064032 := by decide

/-- 45 R264. -/
theorem test_decode_setCurcnt : decode RegsetMap.default .ica 0xCE800001 = .setCurcnt 0x800001 := by decide

/-- 95 2.1. -/
theorem test_decode_setCurpat : decode RegsetMap.default .ica 0xCFF3F00F = .setCurpat 3 0xF00F := by decide

/-- 95 2.1. -/
theorem test_decode_setRc : decode RegsetMap.default .ica 0xD7000055 = .setRc 7 0x000055 := by decide

/-- 45 R267. -/
theorem test_decode_setBackdrop : decode RegsetMap.default .ica 0xD8000008 = .setBackdrop 0x000008 := by decide

/-- 45 R268. -/
theorem test_decode_setMha : decode RegsetMap.default .ica 0xD9800002 = .setMha 0x800002 := by decide

/-- 45 R269. -/
theorem test_decode_setMhb : decode RegsetMap.default .ica 0xDA800002 = .setMhb 0x800002 := by decide

/-- 45 R270. -/
theorem test_decode_setWfa : decode RegsetMap.default .ica 0xDB00003F = .setWfa 0x00003F := by decide

/-- 45 R271. -/
theorem test_decode_setWfb : decode RegsetMap.default .ica 0xDC00003F = .setWfb 0x00003F := by decide

/-- 30 R110: fewer than four bytes hold no command, rejected by name. -/
theorem test_decodeBytes_short :
    decodeBytes RegsetMap.default .ica [0x10, 0x00, 0x00] = .error .tooShort := by rfl

/-- 95 2.1, byte order: `85 FF 80 40` is the command 0x85FF8040. -/
theorem test_decodeBytes_big_endian :
    decodeBytes RegsetMap.default .ica [0x85, 0xFF, 0x80, 0x40, 0x11] = .ok (.setClut 5 0xFF8040, [0x11]) := by rfl

/-- 30 R120: canonical encodings. -/
theorem test_encode_canonical :
    encode (.reloadDcp 0x1000) = 0x20001000 ∧ encode (.reloadDisplayParameters true 2) = 0x78000012
    ∧ encode (.setClut 5 0xFF8040) = 0x85FF8040 ∧ encode (.setClutBank 1) = 0xC3000001
    ∧ encode (.setCurpat 3 0xF00F) = 0xCF03F00F ∧ encode (.setRc 5 0x812340) = 0xD5812340
    ∧ encode .interrupt = 0x60000000 ∧ encode (.reloadVsrStop 0x2000) = 0x50002000 := by decide

/-- 41 R171, 10 R50: offsets of the default layout. -/
theorem test_default_layout :
    periphWord defaultConfig (0x2024 / 2) = some (.word .t0)
    ∧ periphWord defaultConfig (0x2020 / 2) = some (.bytes (some .tsr) (some .tcr))
    ∧ periphWord defaultConfig (0x404C / 2) = some (.bytes none (some (.dmaMemoryHigh 1)))
    ∧ periphWord defaultConfig (0x807C / 2) = some (.bytes none (some (.mmuSegmentNumber 7)))
    ∧ periphWord defaultConfig (0x2030 / 2) = none
    ∧ slotReg defaultConfig 9 = some .dcr ∧ slotChannel 9 = .a ∧ slotChannel 1 = .b
    ∧ slotReg defaultConfig 3 = none := by decide

/-! ## One command -/

/-- A state in a walk of channel `c` in mode `m`, with the planes of reset. -/
def inWalk (c : Channel) (m : Mode) : State :=
  { State.reset with walk := { Walker.idle with running := true, chan := c, mode := m, ip := 0x202, count := 1, max := 32 } }

/-- What `f` sees after command `i`. -/
def after {α : Type} (i : Instr) (s : State) (f : State → α) : Option α :=
  match exec i s with
  | .next t => some (f t)
  | _ => none

/-- `s` with LIR at `v`. -/
def withLir (s : State) (v : Byte) : State := { s with periph := { s.periph with lir := v } }

/-- `s` with channel 0's DCR and DDR at the given values. -/
def withDcrDdr (s : State) (dcr ddr : Half) : State := { s with chA := { s.chA with dcr := dcr, ddr := ddr } }

/-- 43 R218. -/
theorem test_stop_ends : after (.stop) (inWalk .a .ica) (fun t => t.walk.stop) = some true := by decide

/-- 43 R220. -/
theorem test_nop_goes_on : after (.nop) (inWalk .a .dca) (fun t => (t.walk.stop, t.walk.ip)) = some (false, 0x202) := by decide

/-- 95 2.5. -/
theorem test_reloadDcp : after (.reloadDcp 0x1F0000) (withDcrDdr (inWalk .a .ica) 0 0x0200) (fun t => (t.chA.ddr, t.chA.dcp)) = some (0x021F, 0) := by decide

/-- 43 R223. -/
theorem test_reloadDcpInert : after (.reloadDcpInert) (withDcrDdr (inWalk .a .dca) 0 0x0200) (fun t => (t.chA.ddr, t.chA.dcp, t.log)) = some (0x0200, 0, [LogEvent.reloadDcpInDca]) := by decide

/-- 43 R224. -/
theorem test_reloadDcpStop : after (.reloadDcpStop 0x2000) (inWalk .b .dca) (fun t => ((getDcp t .b).toNat, t.walk.stop, t.walk.dcpReloaded)) = some (0x2000, true, true) := by decide

/-- 95 2.1. -/
theorem test_reloadIca_floors : after (.reloadIca 0x801) (inWalk .a .ica) (fun t => t.walk.ip) = some 0x400 := by decide

/-- 43 R226. -/
theorem test_reloadVsr : after (.reloadVsr 0x010000) (withDcrDdr (inWalk .a .dca) 0x8300 0) (fun t => (t.chA.dcr, t.chA.vsr, t.walk.stop)) = some (0x8301, 0, false) := by decide

/-- 43 R228. -/
theorem test_reloadVsrStop : after (.reloadVsrStop 0x2000) (inWalk .b .ica) (fun t => ((getVsr t .b).toNat, t.walk.stop)) = some (0x2000, true) := by decide

/-- 44 R240, 95 2.6. -/
theorem test_interrupt_channel0 : after (.interrupt) (withLir (inWalk .a .ica) 0x21) (fun t => (t.chB.csrr, t.irq[1].level, t.irq[1].vector, t.irq[0].level)) = some (0x04, true, 58, false) := by decide

/-- 44 R240, 95 2.6. -/
theorem test_interrupt_channel1 : after (.interrupt) (withLir (inWalk .b .dca) 0x21) (fun t => (t.chB.csrr, t.irq[0].level, t.irq[0].vector)) = some (0x02, true, 25) := by decide

/-- 95 2.6. -/
theorem test_interrupt_selector0 : after (.interrupt) (withLir (inWalk .b .dca) 0xF8) (fun t => (t.chB.csrr, t.irq[6].level)) = some (0x02, false) := by decide

/-- 95 2.6. -/
theorem test_displayParameters : after (.reloadDisplayParameters true 0xF) (withDcrDdr (inWalk .a .ica) 0x033F 0xF23F) (fun t => (t.chA.dcr, t.chA.ddr)) = some (0x0B3F, 0xFF3F) := by decide

/-- 44 R245. -/
theorem test_displayParameters_clear : after (.reloadDisplayParameters false 2) (withDcrDdr (inWalk .a .ica) 0x8B00 0) (fun t => (t.chA.dcr, t.chA.ddr)) = some (0x8300, 0x0200) := by decide

/-- 45 R252. -/
theorem test_setClut_bank1 : after (.setClut 5 0xFF8040) ({ inWalk .a .ica with chA := { DisplayChannel.reset with clutBank := 1 } }) (fun t => (clutEntry t .a 69, t.chB.clut.length)) = some (0x00FF8040, 0) := by decide

/-- 95 2.7. -/
theorem test_setClut_last : after (.setClut 63 0xABCDEF) ({ inWalk .b .dca with chB := { DisplayChannel.reset with clutBank := 3 } }) (fun t => (clutEntry t .b 255, t.chA.clut.length)) = some (0x00ABCDEF, 0) := by decide

/-- 45 R256. -/
theorem test_setClutBank_own : after (.setClutBank 2) (inWalk .b .ica) (fun t => (t.chA.clutBank, t.chB.clutBank)) = some (0, 2) := by decide

/-- 45 R266. -/
theorem test_setRc_own : after (.setRc 5 0x812340) (inWalk .b .ica) (fun t => (t.chB.rc[5], t.chA.rc[5])) = some (0x812340, 0) := by decide

/-- 45 R265. -/
theorem test_setCurpat : after (.setCurpat 3 0xF00F) (inWalk .a .ica) (fun t => (t.regs.curpat[3], t.regs.curpat[2])) = some (0xF00F, 0) := by decide

/-- 95 2.7. -/
theorem test_setCurpat_gated : after (.setCurpat 3 0xF00F) (inWalk .b .ica) (fun t => t.regs.curpat[3]) = some 0 := by decide

/-- 95 2.7. -/
theorem test_setIcm : after (.setIcm 0x000101) (inWalk .a .ica) (fun t => t.regs.icm) = some 0x000101 := by decide

/-- 95 2.7. -/
theorem test_setIcm_gated : after (.setIcm 0x000101) (inWalk .b .ica) (fun t => t.regs.icm) = some 0 := by decide

/-- 45 R254. -/
theorem test_setTcr : after (.setTcr 0x800000) (inWalk .a .ica) (fun t => t.regs.tcr) = some 0x800000 := by decide

/-- 45 R254. -/
theorem test_setTcr_gated : after (.setTcr 0x800000) (inWalk .b .ica) (fun t => t.regs.tcr) = some 0 := by decide

/-- 45 R255. -/
theorem test_setPor : after (.setPor 0x000001) (inWalk .a .ica) (fun t => t.regs.por) = some 0x000001 := by decide

/-- 45 R255. -/
theorem test_setPor_gated : after (.setPor 0x000001) (inWalk .b .ica) (fun t => t.regs.por) = some 0 := by decide

/-- 95 2.7. -/
theorem test_setTca : after (.setTca 0x123456) (inWalk .a .ica) (fun t => t.regs.tca) = some 0x123456 := by decide

/-- 95 2.7. -/
theorem test_setTca_gated : after (.setTca 0x123456) (inWalk .b .ica) (fun t => t.regs.tca) = some 0 := by decide

/-- 95 2.7. -/
theorem test_setTcb : after (.setTcb 0x123456) (inWalk .b .ica) (fun t => t.regs.tcb) = some 0x123456 := by decide

/-- 95 2.7. -/
theorem test_setTcb_gated : after (.setTcb 0x123456) (inWalk .a .ica) (fun t => t.regs.tcb) = some 0 := by decide

/-- 45 R259. -/
theorem test_setMca : after (.setMca 0x030303) (inWalk .a .ica) (fun t => t.regs.mca) = some 0x030303 := by decide

/-- 45 R259. -/
theorem test_setMca_gated : after (.setMca 0x030303) (inWalk .b .ica) (fun t => t.regs.mca) = some 0 := by decide

/-- 45 R260. -/
theorem test_setMcb : after (.setMcb 0x030303) (inWalk .b .ica) (fun t => t.regs.mcb) = some 0x030303 := by decide

/-- 45 R260. -/
theorem test_setMcb_gated : after (.setMcb 0x030303) (inWalk .a .ica) (fun t => t.regs.mcb) = some 0 := by decide

/-- 45 R261. -/
theorem test_setDyuva : after (.setDyuva 0x108080) (inWalk .a .ica) (fun t => t.regs.dyuva) = some 0x108080 := by decide

/-- 45 R261. -/
theorem test_setDyuva_gated : after (.setDyuva 0x108080) (inWalk .b .ica) (fun t => t.regs.dyuva) = some 0 := by decide

/-- 45 R262. -/
theorem test_setDyuvb : after (.setDyuvb 0x108080) (inWalk .b .ica) (fun t => t.regs.dyuvb) = some 0x108080 := by decide

/-- 45 R262. -/
theorem test_setDyuvb_gated : after (.setDyuvb 0x108080) (inWalk .a .ica) (fun t => t.regs.dyuvb) = some 0 := by decide

/-- 95 2.7. -/
theorem test_setCurpos : after (.setCurpos 0x0A0B0C) (inWalk .a .ica) (fun t => t.regs.curpos) = some 0x0A0B0C := by decide

/-- 95 2.7. -/
theorem test_setCurpos_gated : after (.setCurpos 0x0A0B0C) (inWalk .b .ica) (fun t => t.regs.curpos) = some 0 := by decide

/-- 95 S9. -/
theorem test_setCurcnt : after (.setCurcnt 0x000001) (inWalk .a .ica) (fun t => t.regs.curcnt) = some 0x000001 := by decide

/-- 95 S9. -/
theorem test_setCurcnt_gated : after (.setCurcnt 0x000001) (inWalk .b .ica) (fun t => t.regs.curcnt) = some 0 := by decide

/-- 95 2.7. -/
theorem test_setBackdrop : after (.setBackdrop 0x000010) (inWalk .a .ica) (fun t => t.regs.backdrop) = some 0x000010 := by decide

/-- 95 2.7. -/
theorem test_setBackdrop_gated : after (.setBackdrop 0x000010) (inWalk .b .ica) (fun t => t.regs.backdrop) = some 0 := by decide

/-- 45 R268. -/
theorem test_setMha : after (.setMha 0x800002) (inWalk .a .ica) (fun t => t.regs.mha) = some 0x800002 := by decide

/-- 45 R268. -/
theorem test_setMha_gated : after (.setMha 0x800002) (inWalk .b .ica) (fun t => t.regs.mha) = some 0 := by decide

/-- 45 R269. -/
theorem test_setMhb : after (.setMhb 0x800002) (inWalk .b .ica) (fun t => t.regs.mhb) = some 0x800002 := by decide

/-- 45 R269. -/
theorem test_setMhb_gated : after (.setMhb 0x800002) (inWalk .a .ica) (fun t => t.regs.mhb) = some 0 := by decide

/-- 45 R270. -/
theorem test_setWfa : after (.setWfa 0x00003F) (inWalk .a .ica) (fun t => t.regs.wfa) = some 0x00003F := by decide

/-- 45 R270. -/
theorem test_setWfa_gated : after (.setWfa 0x00003F) (inWalk .b .ica) (fun t => t.regs.wfa) = some 0 := by decide

/-- 95 2.7. -/
theorem test_setWfb : after (.setWfb 0x00003F) (inWalk .b .ica) (fun t => t.regs.wfb) = some 0x00003F := by decide

/-- 95 2.7. -/
theorem test_setWfb_gated : after (.setWfb 0x00003F) (inWalk .a .ica) (fun t => t.regs.wfb) = some 0 := by decide

/-- 45 R280. -/
theorem test_regsetUnassigned : after (.regsetUnassigned 0x70) (inWalk .a .ica) (fun t => (t.regs == State.reset.regs, t.walk.stop, t.log)) = some (true, false, [LogEvent.unknownRegister]) := by decide

/-! ## One step -/

/-- What `f` sees after one step. -/
def afterStep {α : Type} (s : State) (f : State → α) : Option α :=
  match step s with
  | .next t => some (f t)
  | _ => none

/-- 95 P1: the last command of an ICA ends it, and with channel 1 not enabled the event is over. -/
theorem test_step_last_command :
    afterStep (State.reset.withFetchWord 32 0x50002000) (fun t => ((getVsr t .a).toNat, t.walk.running, t.line))
      = some (0x2000, false, 1) := by decide

/-- 43 R225: the word after a jump comes from `addr / 2`. -/
theorem test_step_jump :
    afterStep (State.reset.withFetchWord 32 0x40000800) (fun t => (t.walk.ip, t.walk.running)) = some (0x400, true) := by
  decide

/-- `s` about to process line `n`. -/
def atLine (s : State) (n : Nat) : State := { s with line := n }

/-- 95 2.9: reset, line 0: no walk, DA clear, line 1 next. -/
theorem test_scan_line0 :
    afterStep State.reset (fun t => (t.line, t.chA.csrr, t.walk.running)) = some (1, 0, false) := by decide

/-- 95 2.9: line 5 only advances. -/
theorem test_scan_line5 :
    afterStep (atLine State.reset 5) (fun t => (t.line, t.videoOut.length, (getVsr t .a).toNat)) = some (6, 0, 0) := by decide

/-- 95 2.9: line 22 renders both channels from VSR 0. -/
theorem test_scan_line22 :
    afterStep (atLine State.reset 22) (fun t => (t.chA.csrr, (getVsr t .a).toNat, (getVsr t .b).toNat, t.videoOut.length, t.line))
      = some (0x80, 0x180, 0x180, 1, 23) := by decide +kernel

/-- 95 2.9: the line after 261 is 0. -/
theorem test_scan_wraps : afterStep (atLine State.reset 261) (fun t => t.line) = some 0 := by decide +kernel

/-- 95 2.5: a DCA of one RELOAD_DCP_STOP keeps its address; of one STOP, DCP moves past it. -/
theorem test_dca_write_back :
    (let s := { inWalk .a .dca with line := 22, planeA := [(0x404, 0x30), (0x405, 0x00), (0x406, 0x10), (0x407, 0x00)] }
     afterStep s (fun t => (getDcp t .a).toNat) = some 0x1000)
    ∧ (let s := { inWalk .a .dca with line := 22, planeA := [(0x404, 0x00), (0x405, 0x00), (0x406, 0x00), (0x407, 0x00)] }
       afterStep s (fun t => (getDcp t .a).toNat) = some 0x408) := by decide

/-! ## The other agents -/

/-- 40 R150: the DMA address counter of block 0. -/
theorem test_dma_address :
    (periphWrite (periphWrite State.reset (0x400C / 2) .both 0x1234) (0x400E / 2) .both 0x5678).periph.dma[0].memoryAddress
      = 0x345678 := by decide

/-- 95 2.2: lanes of a 16-bit register. -/
theorem test_periph_lanes :
    (let s := periphWrite State.reset (0x2022 / 2) .both 0x1234
     (periphWrite s (0x2022 / 2) .low 0xABCD).periph.reload = 0x12CD
     ∧ (periphWrite s (0x2022 / 2) .high 0xABCD).periph.reload = 0xAB34) := by decide

/-- 95 2.2: LIR stands in the low lane. -/
theorem test_periph_lir :
    (periphWrite State.reset (0x1000 / 2) .high 0x2500).periph.lir = 0
    ∧ (periphRead (periphWrite State.reset (0x1000 / 2) .both 0xFF25) (0x1000 / 2) .both).busOut = [0x0025] := by decide

/-- 95 P5, steps 1 to 7: the timer from the CPU side. -/
theorem test_timer_program :
    (let s := periphWrite (periphWrite (periphWrite State.reset (0x2044 / 2) .low 0x0003) (0x2022 / 2) .both 0xFFF0)
       (0x2024 / 2) .both 0xFF00
     let t := timer0Event s
     let u := periphWrite t (0x2020 / 2) .high 0x8000
     (s.t0Armed, timerCompare s.periph.t0) = (true, 256)
     ∧ (t.periph.t0, t.periph.tsr, t.irq[2].level, t.irq[2].vector, timerCompare t.periph.t0) = (0xFFF0, 0x80, true, 59, 16)
     ∧ (u.periph.tsr, u.irq[2].level, u.t0Armed) = (0, false, true)) := by decide

/-- 95 S2: clearing a subset keeps the line asserted. -/
theorem test_write_one_to_clear :
    (let s := { State.reset with
       periph := { State.reset.periph with tsr := 0xC0, picr1 := 0x04 }
       irq := State.reset.irq.set 3 { level := true, vector := 60 } }
     let t := periphWrite s (0x2020 / 2) .high 0x8000
     let u := periphWrite t (0x2020 / 2) .high 0x4000
     (t.periph.tsr, t.irq[3].level) = (0x40, true) ∧ (u.periph.tsr, u.irq[3].level) = (0, false)) := by decide

/-- 95 2.4: the read of channel 1's status clears IT1 and IT2 and drops both lines; a high-lane read does not. -/
theorem test_status_read :
    (let s := withLir { State.reset with
       chB := { DisplayChannel.reset with csrr := 0x06 }
       irq := (State.reset.irq.set 0 { level := true, vector := 25 }).set 1 { level := true, vector := 58 } } 0x21
     let t := mcd212Read s 0 .both
     let u := mcd212Read s 0 .high
     (t.busOut, t.chB.csrr, t.irq[0].level, t.irq[1].level) = ([0x0006], 0, false, false)
     ∧ (u.busOut, u.chB.csrr, u.irq[0].level, u.irq[1].level) = ([0x0006], 0x06, true, true)) := by decide

/-- 95 2.4: DCR writes and their lanes; the control register cannot be read back. -/
theorem test_mcd212_write :
    (mcd212Write State.reset 9 .both 0x8300).chA.dcr = 0x8300
    ∧ (mcd212Write (mcd212Write State.reset 1 .both 0x8300) 1 .low 0xFF02).chB.dcr = 0x8302
    ∧ (mcd212Read (mcd212Write State.reset 8 .both 0x8000) 8 .both).busOut = [0] := by decide

/-- 95 2.4: the split address registers. -/
theorem test_split_address :
    (let t := setVsr (withDcrDdr State.reset 0x8B3F 0) .a 0x012345
     (t.chA.dcr, t.chA.vsr) = (0x8B01, 0x2345))
    ∧ (let t := setVsr State.reset .a 0x400180
       (t.chA.dcr, t.chA.vsr) = (0, 0x0180))
    ∧ (let t := setDcp { State.reset with chB := { DisplayChannel.reset with ddr := 0x0200 } } .b 0x1F0000
       (t.chB.ddr, t.chB.dcp) = (0x021F, 0)) := by decide

/-- A stream of the listed bytes, then zeros. -/
def stream (bytes : List Byte) (i : Nat) : Byte := bytes.getD i 0

/-- 95 S6: `85 03` is three pairs of index 5, two bytes. -/
theorem test_rle_run :
    rleItem (stream [0x85, 0x03]) (fun b => b.setWidth 32) 0 0 = ([5, 5, 5, 5, 5, 5], 2) := by decide

/-- 95 2.8: `81 FF 82 FF 83 00`: the second run is clamped and the third belongs to the next line. -/
theorem test_rle_clamped :
    (rlePixels (stream [0x81, 0xFF, 0x82, 0xFF, 0x83, 0x00]) (fun b => b.setWidth 32) 384 0 0).2 = 4 := by decide +kernel

/-- 95 2.8: `85 03 07 81 00`: run, literal, run to the end of the line. -/
theorem test_rle_line :
    (let r := rlePixels (stream [0x85, 0x03, 0x07, 0x81, 0x00]) (fun b => b.setWidth 32) 384 0 0
     (r.1.take 9, r.1.length, r.2) = ([5, 5, 5, 5, 5, 5, 7, 7, 1], 768, 5)) := by decide +kernel

/-- 20 R85: a CPU write by lanes and the big-endian word it reads back. -/
theorem test_plane_write :
    (let s := planeWrite (planeWrite State.reset .b 0x200 .both 0x85FF) .b 0x200 .low 0x1234
     (planeWord s .b 0x200 0, s.planeA.length) = (0x8534, 0)) := by decide

/-- `s` with planes of `n` bytes. -/
def withPlaneBytes (s : State) (n : Nat) : State := { s with config := { s.config with planeBytes := n } }

/-- `s` on the address map that 20 R96 gives for information, the peripheral page as long as its default layout. -/
def onTheMap (s : State) : State :=
  { s with config := { s.config with
      planeABase := 0, planeBBase := 0x200000, mcd212Base := 0x4FFFE0, periphBase := 0x80000000, periphBytes := 0x8080 } }

/-- What `f` sees after an external event. -/
def afterExternal {α : Type} (e : External) (s : State) (f : State → α) : Option α :=
  match runExternal s e with
  | .next t => some (f t)
  | _ => none

/-- 20 R96: on that map LIR is the low byte of the word at 0x80001000, timer0 is at 0x80002024, and channel 0's DCR is the tenth
word of the display page. -/
theorem test_bus_pages :
    afterExternal (.busWrite 0x80001000 .low 0x0025) (onTheMap State.reset) (fun t => t.periph.lir) = some 0x25
    ∧ afterExternal (.busWrite 0x80002024 .both 0xFF00) (onTheMap State.reset) (fun t => (t.periph.t0, t.t0Armed))
        = some (0xFF00, true)
    ∧ afterExternal (.busWrite 0x4FFFF2 .both 0x8300) (onTheMap State.reset) (fun t => t.chA.dcr) = some 0x8300
    ∧ afterExternal (.busRead 0x4FFFE2 .both) (onTheMap (mcd212Write State.reset 1 .both 0x1234)) (fun t => t.busOut)
        = some [0x1234] := by decide

/-- 20 R85, R96: plane B starts at 0x200000 on that map. -/
theorem test_bus_planes :
    afterExternal (.busWrite 0x200400 .both 0x85FF) (onTheMap State.reset) (fun t => (t.planeA, t.planeB))
      = some ([], [(0x400, 0x85), (0x401, 0xFF)]) := by decide

/-- 20 R84, R85: in a plane of 0x401 bytes the word at 0x400 is in range by its high byte. -/
theorem test_plane_of_odd_size :
    afterExternal (.planeWrite .a 0x200 .both 0x85FF) (withPlaneBytes State.reset 0x401) (fun t => t.planeA)
        = some [(0x400, 0x85)]
    ∧ afterExternal (.planeRead .a 0x200) (withPlaneBytes { State.reset with planeA := [(0x400, 0x85)] } 0x401)
        (fun t => t.busOut.length) = some 1
    ∧ afterExternal (.planeWrite .a 0x200 .low 0x85FF) (withPlaneBytes State.reset 0x401) (fun t => t.planeA) = none := by
  decide

/-- 60 R356: a CPU access scheduled before the pending scan event goes first. -/
theorem test_agent_order :
    (let s := { State.reset with scanDue := 100, agenda := [⟨50, .mcd212Write 9 .both 0x8200⟩] }
     afterStep s (fun t => (t.chA.dcr, t.now, t.line, t.agenda.length)) = some (0x8200, 50, 0, 0))
    ∧ (let s := { State.reset with scanDue := 50, agenda := [⟨50, .mcd212Write 9 .both 0x8200⟩] }
       afterStep s (fun t => (t.chA.dcr, t.now, t.line, t.agenda.length)) = some (0, 50, 1, 1)) := by decide

/-! ## Witnesses: the hypotheses of each statement are met, clause by clause -/

/-- A walk of channel `c` in mode `m` whose next command is `w`. -/
def walkAt (c : Channel) (m : Mode) (w : Command) : State := placeCommand (inWalk c m) w

/-- What a step answers, for the witnesses: whether it is a next state. -/
def hasNext (r : Host.Outcome State Fault Refusal) : Bool :=
  match r with
  | .next _ => true
  | _ => false

theorem witness_DecodeOfEncodeIsTheCommand :
    (Instr.reloadVsr 0x1FFFFF).wellFormed = true ∧ (Instr.reloadVsr 0x1FFFFF).validIn .dca = true
    ∧ (Instr.regsetUnassigned 0x77).wellFormed = true ∧ (Instr.regsetUnassigned 0x77).validIn .ica = true := by decide

theorem witness_OnlySignificantBitsMatter :
    (0x7FFFFFE5 : Command) &&& significantMask (decode RegsetMap.default .ica 0x78000005)
      = 0x78000005 &&& significantMask (decode RegsetMap.default .ica 0x78000005) := by decide

theorem witness_OpcodeBitsThatAreSignificant :
    ((0x6F : Byte).toNat < 0x70 ∧ (0x60 : Byte).toNat / 16 = (0x6F : Byte).toNat / 16)
    ∧ ((0x78 : Byte).toNat / 8 = 0x0F ∧ (0x7F : Byte).toNat / 8 = 0x0F)
    ∧ (0x70 ≤ (0x77 : Byte).toNat ∧ (0x77 : Byte).toNat / 8 ≠ 0x0F ∧ 0x70 ≤ (0x80 : Byte).toNat
      ∧ (0x80 : Byte).toNat / 8 ≠ 0x0F ∧ (0x77 : Byte) ≠ 0x80) := by decide

theorem witness_ModeChangesTwoNibblesAndInterrupt :
    Instr.stop ≠ .interrupt
    ∧ (∃ t, exec .stop { inWalk .a .ica with walk := { (inWalk .a .ica).walk with mode := .ica } } = .next t)
    ∧ ∃ u, exec .stop { inWalk .a .ica with walk := { (inWalk .a .ica).walk with mode := .dca } } = .next u :=
  ⟨by decide, ⟨_, rfl⟩, ⟨_, rfl⟩⟩

/-- LIR 0x21 selects line 2 for channel 0, and not line 1. -/
theorem witness_ModeChangesTwoNibblesAndInterrupt_interrupt :
    (let s := withLir (inWalk .a .ica) 0x21
     (1 : IrqLine).number = (lirSelector s.periph.lir s.chan).toNat
     ∧ (0 : IrqLine).number ≠ (lirSelector s.periph.lir s.chan).toNat
     ∧ (∃ t, exec .interrupt { s with walk := { s.walk with mode := .ica } } = .next t)
     ∧ ∃ u, exec .interrupt { s with walk := { s.walk with mode := .dca } } = .next u) :=
  ⟨by decide, by decide, ⟨_, rfl⟩, ⟨_, rfl⟩⟩

theorem witness_StepRunsTheDecodedCommand :
    (walkAt .b .dca 0x40000801).walk.running = true ∧ nextCommand (walkAt .b .dca 0x40000801) = .reloadVsr 0x801
    ∧ ∃ t, exec (.reloadVsr 0x801) (advance (walkAt .b .dca 0x40000801)) = .next t :=
  ⟨by decide, by decide, ⟨_, rfl⟩⟩

/-- The last command word of a plane. -/
theorem witness_PlacedCommandIsFetched :
    2 * (setIp (inWalk .a .ica) 0x3FFFE).walk.ip + 3 < (setIp (inWalk .a .ica) 0x3FFFE).config.planeBytes
    ∧ (Channel.b ≠ (inWalk .a .ica).chan ∧ 0x403 < 2 * (inWalk .a .ica).walk.ip
      ∧ 2 * (inWalk .a .ica).walk.ip + 3 < 0x408) := by decide

theorem witness_StopHaltsAndNopHasNoEffect :
    (0x0FFFFFFF : Command) &&& 0xF0000000 = 0 ∧ (0x1FFFFFFF : Command) &&& 0xF0000000 = 0x10000000
    ∧ ((walkAt .a .dca 0x0FFFFFFF).walk.running = true ∧ nextCommand (walkAt .a .dca 0x0FFFFFFF) = .stop)
    ∧ (let s := walkAt .a .dca 0x1FFFFFFF
       s.walk.running = true ∧ nextCommand s = .nop ∧ s.walk.stop = false ∧ s.walk.count + 1 ≠ s.walk.max)
    ∧ (let s := walkAt .a .ica 0x10000000
       s.walk.running = true ∧ nextCommand s = .nop ∧ s.walk.stop = false ∧ s.walk.mode = .ica) := by decide

theorem witness_ReloadDcpInDcaIsInert :
    (0x2FFFFFFF : Command) &&& 0xF0000000 = 0x20000000
    ∧ (let s := walkAt .b .dca 0x20012340
       s.walk.running = true ∧ s.walk.mode = .dca ∧ nextCommand s = .reloadDcpInert ∧ s.walk.stop = false
       ∧ s.walk.count + 1 ≠ s.walk.max) := by decide

theorem witness_OnlyThreeCommandsHalt :
    (inWalk .b .ica).walk.stop = false ∧ ∃ t, exec (.reloadIca 0x801) (inWalk .b .ica) = .next t := ⟨by decide, ⟨_, rfl⟩⟩

theorem witness_CommandsStayInsideTheirChannel : ∃ t, exec .interrupt (withLir (inWalk .a .ica) 0x21) = .next t := ⟨_, rfl⟩

/-- Line 5, with a write of channel 0's DCR before the scan event. -/
def writeBeforeScan : State := { atLine State.reset 5 with scanDue := 100, agenda := [⟨50, .mcd212Write 9 .both 0x8200⟩] }

/-- Line 5, with `e` waiting behind the scan event. -/
def waitBehindScan (e : External) : State := { atLine State.reset 5 with scanDue := 50, agenda := [⟨50, e⟩] }

/-- An event of the block goes first while a machine reset waits. -/
theorem witness_OnlyCommandsWriteRegisterSetRegisters_reset_waits :
    (waitBehindScan .machineReset).walk.running = false ∧ hasNext (step (waitBehindScan .machineReset)) = true
    ∧ externalFirst (waitBehindScan .machineReset) ⟨50, .machineReset⟩ = false := by decide

/-- A walk whose next command is no REGISTER SET command, and ends the walk. -/
theorem witness_OnlyCommandsWriteRegisterSetRegisters_in_a_walk :
    (walkAt .b .ica 0x50002000).walk.running = true
    ∧ isRegisterSet (nextCommand (walkAt .b .ica 0x50002000)) = false
    ∧ hasNext (step (walkAt .b .ica 0x50002000)) = true := by decide

theorem witness_OnlyCommandsWriteRegisterSetRegisters :
    writeBeforeScan.walk.running = false ∧ hasNext (step writeBeforeScan) = true
    ∧ ∀ x rest, writeBeforeScan.agenda = x :: rest → externalFirst writeBeforeScan x = true → x.event ≠ .machineReset := by
  refine ⟨by decide, by decide, fun x rest h _ => ?_⟩
  cases h
  decide

theorem witness_DcpIsWrittenBackAtTheEndOfADca :
    ((inWalk .a .dca).walk.mode = .dca ∧ (inWalk .a .dca).walk.dcpReloaded = false)
    ∧ (inWalk .b .ica).walk.mode = .ica ∧ (setDcpReloaded (inWalk .b .dca)).walk.dcpReloaded = true
    ∧ Channel.b ≠ (inWalk .a .dca).chan := by decide

theorem witness_DcaCapIsSampledAtTheStart :
    (let s := { walkAt .a .dca 0x10000000 with line := 22 }
     let t := { s with walk := { s.walk with count := 31 } }
     t.walk.running = true ∧ t.walk.mode = .dca ∧ t.walk.count + 1 = t.walk.max ∧ hasNext (step t) = true) := by decide

theorem witness_DcaInvocationTerminates :
    (let s := inWalk .a .dca
     let t := { s with walk := { s.walk with count := 63, max := 64 } }
     t.walk.running = true ∧ t.walk.mode = .dca ∧ t.walk.count < t.walk.max ∧ t.walk.max ≤ 64) := by decide

theorem witness_ActiveLineEventCompletes :
    (atLine State.reset 22).walk.running = false ∧ Config.firstActiveLine ≤ (atLine State.reset 22).line := by decide

theorem witness_IcaJumpToItselfHangs :
    (let s := walkAt .a .ica 0x40000405
     s.walk.running = true ∧ s.walk.mode = .ica ∧ s.walk.stop = false ∧ 2 * s.walk.ip + 3 < s.config.planeBytes
     ∧ nextCommand s = .reloadIca 0x405 ∧ (0x405 : Addr21).toNat / 2 = s.walk.ip) := by decide

theorem witness_IcaEndsAtItsFirstStop_any_command :
    (walkAt .b .ica 0x50002000).walk.running = true ∧ (walkAt .b .ica 0x50002000).walk.mode = .ica
    ∧ (walkAt .b .ica 0x50002000).walk.stop = false
    ∧ ∃ t, exec (nextCommand (walkAt .b .ica 0x50002000)) (advance (walkAt .b .ica 0x50002000)) = .next t := by
  have h : nextCommand (walkAt .b .ica 0x50002000) = .reloadVsrStop 0x2000 := by decide
  exact ⟨by decide, by decide, by decide, by rw [h]; exact ⟨_, rfl⟩⟩

theorem witness_IcaEndsAtItsFirstStop :
    (walkAt .a .ica 0x0FFFFFFF).walk.running = true ∧ (walkAt .a .ica 0x0FFFFFFF).walk.mode = .ica
    ∧ nextCommand (walkAt .a .ica 0x0FFFFFFF) = .stop ∧ nextCommand (walkAt .b .ica 0) = .stop := by decide

theorem witness_StepsRefineTheScanEvent : (atLine State.reset 0).walk.running = false := by decide

/-- `s` with display-enable honoured. -/
def honouring (s : State) : State := { s with config := { s.config with honorDe := true } }

theorem witness_ScanEventFollowsTheLine :
    (lineProcessed (atLine State.reset 0) = true ∧ (atLine State.reset 0).line = 0)
    ∧ (lineProcessed (honouring (atLine (withDcrDdr State.reset 0x8000 0) 22)) = true)
    ∧ (1 ≤ (atLine State.reset 1).line ∧ (atLine State.reset 21).line < 22)
    ∧ ((honouring State.reset).config.honorDe = true ∧ (honouring State.reset).chA.dcr.getLsbD (honouring State.reset).config.bits.de.val = false) := by decide

/-- Line 0, the first active line, and the lines on either side of the gap, with each channel enabled and neither. -/
theorem witness_WalksStartOnlyWhereEnabled :
    (let l := State.reset.config.bits
     l.disjoint = true
     ∧ (withDcrDdr State.reset 0x0200 0).chA.dcr.getLsbD l.ica.val = true ∧ State.reset.chA.dcr.getLsbD l.ica.val = false
     ∧ ({ DisplayChannel.reset with dcr := 0x0100 }).dcr.getLsbD l.dca.val = true
     ∧ State.reset.chB.dcr.getLsbD l.dca.val = false)
    ∧ (lineProcessed (atLine (withDcrDdr State.reset 0x0200 0) 0) = true ∧ (atLine State.reset 0).line = 0)
    ∧ (lineProcessed (atLine State.reset 22) = true ∧ 22 ≤ (atLine State.reset 22).line)
    ∧ lineProcessed (honouring (atLine State.reset 0)) = false
    ∧ (0 < (atLine State.reset 1).line ∧ (atLine State.reset 21).line < 22) := by decide

theorem witness_BitmapLineIsTwoPixelsAByte :
    (let d := (withDcrDdr State.reset 0xF7FF 0xFCFF).display .a
     let l := State.reset.config.bits
     d.dcr.getLsbD l.cm.val = false ∧ d.ddr.extractLsb' l.ft.val 2 = (0 : BitVec 2))
    ∧ (let d := (withDcrDdr State.reset 0 0x0100).display .a
       let l := State.reset.config.bits
     d.dcr.getLsbD l.cm.val = false ∧ d.ddr.extractLsb' l.ft.val 2 = (1 : BitVec 2)) := by decide

theorem witness_RunLengthItemPixels :
    (766 < 768 ∧ ((stream [0x7F, 0]) 0).toNat < 128)
    ∧ (128 ≤ ((stream [0x80, 0]) 0).toNat ∧ ((stream [0x80, 0]) 1).toNat = 0)
    ∧ (128 ≤ ((stream [0xFF, 1]) 0).toNat ∧ ((stream [0xFF, 1]) 1).toNat ≠ 0) := by decide

theorem witness_RunLengthLineFillsTheLine :
    (let d := (withDcrDdr State.reset 0 0x0200).display .a
     let l := State.reset.config.bits
     d.dcr.getLsbD l.cm.val = false ∧ d.ddr.extractLsb' l.ft.val 2 = (2 : BitVec 2)) := by decide

theorem witness_UnimplementedModesKeepVsr :
    ((withDcrDdr State.reset 0x0800 0x0200).display .a).dcr.getLsbD State.reset.config.bits.cm.val = true
    ∧ ((withDcrDdr State.reset 0 0x0300).display .a).ddr.extractLsb' State.reset.config.bits.ft.val 2 = (3 : BitVec 2) := by decide

/-- Two states that differ in the other channel and in a REGISTER SET register. -/
theorem witness_PixelsDependOnTheirChannelOnly :
    (let s := State.reset
     let t := { s with chB := { s.chB with dcr := 0x0B01 }, regs := { s.regs with icm := 1 } }
     t ≠ s ∧ t.plane .a = s.plane .a ∧ t.config.planeBytes = s.config.planeBytes ∧ t.epoch = s.epoch
     ∧ t.freeCount = s.freeCount ∧ getVsr t .a = getVsr s .a
     ∧ (t.display .a).displayMode t.config.bits = (s.display .a).displayMode s.config.bits ∧ (t.display .a).clut = (s.display .a).clut) := by
  exact ⟨fun h => absurd (congrArg (fun u => u.regs.icm) h) (by decide), rfl, rfl, rfl, rfl, rfl, rfl, rfl⟩

theorem witness_ActiveLineAppendsOneRecord :
    (lineProcessed (atLine State.reset 22) = true ∧ 22 ≤ (atLine State.reset 22).line)
    ∧ lineProcessed State.reset = true ∧ State.reset.line = 0 := by decide

theorem witness_DisplayRegistersReadAndWriteByLane :
    State.reset.config.slotLayout = defaultSlotLayout ∧ (1 : Fin 8).val = 1 ∧ (5 : Fin 8).val = 5 := by decide

theorem witness_StatusReadAcknowledgesInterrupts : (withLir State.reset 0x21).config.slotLayout = defaultSlotLayout := by decide

theorem witness_UnimplementedRegistersReadZero :
    State.reset.config.slotLayout = defaultSlotLayout
    ∧ (0x3 : BitVec 4).toNat % 8 = 3 ∧ (0xE : BitVec 4).toNat % 8 = 6 ∧ (0xF : BitVec 4).toNat % 8 = 7
    ∧ State.reset.config.periphLayout.lookup (2 * (0x2030 / 2)) = none := by decide

/-- A word of one register, a word of two, the word before timer0, and timer0's own. -/
theorem witness_PeripheralStorageIsByRegister :
    (let l := State.reset.config.periphLayout
     l.lookup (2 * (0x404C / 2)) = some (.bytes none (some (.dmaMemoryHigh 1)))
     ∧ (∀ r ∈ [none, some (ByteReg.dmaMemoryHigh 1)], r ≠ some .tsr ∧ r ≠ some .uartThr)
     ∧ l.lookup (2 * (0x4044 / 2)) = some (.bytes (some (.dmaDeviceControl 1)) (some (.dmaOperationControl 1)))
     ∧ (∀ r ∈ [some (ByteReg.dmaDeviceControl 1), some (.dmaOperationControl 1)], r ≠ some .tsr ∧ r ≠ some .uartThr)
     ∧ l.lookup (2 * (0x2022 / 2)) = some (.word .reload) ∧ WordReg.reload ≠ .t0
     ∧ l.lookup (2 * (0x2024 / 2)) = some (.word .t0)) := by decide

/-- A layout with the transmit register and TSR in lanes, and timer0 at an offset, that the default one does not have. -/
def otherLayout : State :=
  { State.reset with config := { State.reset.config with
      periphLayout := [(0, .bytes (some .uartThr) (some .tsr)), (2, .bytes (some .tsr) none), (4, .word .t0),
        (6, .bytes (some .tsr) (some .tcr)), (8, .bytes none (some .uartThr))] } }

theorem witness_SelectorAndEchoRegistersByLane_other_layout :
    otherLayout.config.periphLayout.lookup (2 * 0) = some (.bytes (some .uartThr) (some .tsr))
    ∧ otherLayout.config.periphLayout.lookup (2 * 1) = some (.bytes (some .tsr) none)
    ∧ otherLayout.config.periphLayout.lookup (2 * 4) = some (.bytes none (some .uartThr)) := by decide

theorem witness_SelectorAndEchoRegistersByLane :
    ({ State.reset with config := { State.reset.config with uartEcho := true } }).config.periphLayout = defaultPeriphLayout := by
  decide

theorem witness_TimerWriteArms :
    State.reset.config.periphLayout.lookup (2 * (0x2024 / 2)) = some (.word .t0)
    ∧ otherLayout.config.periphLayout.lookup (2 * 2) = some (.word .t0) := by decide

theorem witness_TimerStatusIsWriteOneToClear :
    State.reset.config.periphLayout.lookup (2 * (0x2020 / 2)) = some (.bytes (some .tsr) (some .tcr))
    ∧ otherLayout.config.periphLayout.lookup (2 * 3) = some (.bytes (some .tsr) (some .tcr))
    ∧ otherLayout.config.periphLayout.lookup (2 * 0) = some (.bytes (some .uartThr) (some .tsr)) := by decide

theorem witness_AssertRaisesOneLine : (6 : IrqLine) ≠ 0 := by decide

/-- The last word of a plane of even size and the first beyond it; in a plane of odd size, the word that its end cuts. -/
theorem witness_PlaneAccessesAreByteLanes :
    (2 * 0x3FFFF + 1 < State.reset.config.planeBytes ∧ State.reset.config.planeBytes ≤ 2 * 0x40000)
    ∧ (let s := withPlaneBytes State.reset 0x401
       ((Lanes.high ≠ .low ∧ 2 * 0x200 < s.config.planeBytes) ∧ (Lanes.both ≠ .low ∧ 2 * 0x200 < s.config.planeBytes))
       ∧ ¬(Lanes.low ≠ .low ∧ 2 * 0x200 < s.config.planeBytes ∨ Lanes.low ≠ .high ∧ 2 * 0x200 + 1 < s.config.planeBytes)
       ∧ s.config.planeBytes ≤ 2 * 0x201) := by decide

/-- The last word of each region on the map of 20 R96, an address of none, an odd one, and one of two planes that overlap. -/
theorem witness_PlaneAccessesAreByteLanes_bus :
    (let c := (onTheMap State.reset).config
     let only : BusRegion → Nat → Nat → Bool := fun r a w =>
       inRegion c a r && decide (a = regionBase c r + 2 * w)
       && [BusRegion.plane .a, .plane .b, .mcd212, .periph].all (fun q => decide (q = r) || !inRegion c a q)
     only (.plane .a) 0x07FFFE 0x3FFFF = true ∧ only (.plane .b) 0x200000 0 = true ∧ only .mcd212 0x4FFFFE 15 = true
     ∧ only .periph 0x8000807E (0x807E / 2) = true
     ∧ (∀ a ∈ [0x080000, 0x1FFFFE, 0x500000, 0x80008080, 0x80002025],
        [BusRegion.plane .a, .plane .b, .mcd212, .periph].all (fun q => !inRegion c a q) = true))
    ∧ (let c := { (onTheMap State.reset).config with planeBBase := 0x040000 }
       BusRegion.plane .a ≠ .plane .b ∧ inRegion c 0x040000 (.plane .a) = true ∧ inRegion c 0x040000 (.plane .b) = true) := by
  decide

theorem witness_NoOtherAgentMovesInsideAWalk : (inWalk .b .dca).walk.running = true := by decide

theorem witness_AgentsMoveInTheOrderOfTheirTimes :
    (let s := writeBeforeScan
     s.walk.running = false ∧ s.now ≤ s.scanDue ∧ s.t0Armed = false ∧ max s.now 50 < s.scanDue)
    ∧ (let s := { writeBeforeScan with scanDue := 50, t0Armed := true, t0Due := 51 }
       s.walk.running = false ∧ s.now ≤ s.scanDue ∧ s.now ≤ s.t0Due ∧ s.scanDue ≤ max s.now 50 ∧ s.scanDue < s.t0Due)
    ∧ (let s := { writeBeforeScan with scanDue := 51, t0Armed := true, t0Due := 50 }
       s.walk.running = false ∧ s.now ≤ s.scanDue ∧ s.t0Due ≤ max s.now 50 ∧ s.t0Armed = true ∧ s.t0Due < s.scanDue)
    ∧ (let s := { writeBeforeScan with scanDue := 50, t0Armed := true, t0Due := 50 }
       s.walk.running = false ∧ s.now ≤ s.scanDue ∧ s.now ≤ s.t0Due ∧ s.t0Due ≤ max s.now 50 ∧ s.t0Due = s.scanDue) := by
  decide

/-- A state at line 5 with a written plane byte, a written CLUT entry and an asserted line meets the invariant. -/
def busyState : State :=
  { atLine State.reset 5 with
    planeA := [(0x400, 0x10), (0x7FFFF, 0x02)]
    chB := { DisplayChannel.reset with clut := [(255, 0x00FFFFFF)], csrr := 0x06 }
    irq := #v[⟨true, 57⟩, ⟨false, 0⟩, ⟨false, 0⟩, ⟨false, 0⟩, ⟨false, 0⟩, ⟨false, 0⟩, ⟨true, 31⟩] }

theorem witness_EveryStepKeepsTheInvariant : Inv busyState ∧ hasNext (step busyState) = true := by
  refine ⟨⟨by unfold memoryCanonical; decide, ?_, by unfold statusFlagsOnly; decide, by unfold lineInFrame; decide,
    by unfold walkerShape; decide, by unfold vectorsLegal; decide, ?_, ?_⟩, by decide⟩
  · intro c e he
    cases c
    · cases he
    · simp only [busyState, State.display, List.mem_singleton] at he
      subst he
      decide
  · exact ⟨Nat.zero_le _, fun h => absurd h (by decide)⟩
  · intro r hr
    cases hr

theorem witness_NoStepChangesTheConfiguration : hasNext (step busyState) = true ∧ hasNext (step writeBeforeScan) = true := by
  decide

theorem witness_OnlyTheCpuWritesPlaneMemory :
    hasNext (step writeBeforeScan) = true ∧ writeBeforeScan.walk.running = false
    ∧ ∀ x rest, writeBeforeScan.agenda = x :: rest → externalFirst writeBeforeScan x = true →
        writesPlane writeBeforeScan.config x.event = false ∧ x.event ≠ .machineReset := by
  refine ⟨by decide, by decide, fun x rest h _ => ?_⟩
  cases h
  decide

/-- An event of the block goes first while a plane write waits. -/
theorem witness_OnlyTheCpuWritesPlaneMemory_write_waits :
    hasNext (step (waitBehindScan (.planeWrite .a 0 .both 0))) = true
    ∧ externalFirst (waitBehindScan (.planeWrite .a 0 .both 0)) ⟨50, .planeWrite .a 0 .both 0⟩ = false := by decide

/-- The bus address of DCR is no plane's. -/
theorem witness_OnlyTheCpuWritesPlaneMemory_bus :
    (let s := onTheMap { atLine State.reset 5 with scanDue := 100, agenda := [⟨50, .busWrite 0x4FFFF2 .both 0x8200⟩] }
     hasNext (step s) = true ∧ s.walk.running = false
     ∧ s.agenda.all (fun x => !writesPlane s.config x.event && decide (x.event ≠ .machineReset)) = true
     ∧ writesPlane s.config (.busWrite 0x200000 .both 0) = true) := by decide

theorem witness_RunsThatDifferInTheirLogsAreTheSame :
    withoutLog (logEvent State.reset .unknownRegister) = withoutLog State.reset
    ∧ (logEvent State.reset .unknownRegister).log ≠ State.reset.log := ⟨rfl, by decide⟩


end Sys2Proof.Tests
end

section
/-!
SUPPORT. 30 encoding: which bits of the opcode byte the decoder reads (R112), and that every word has a meaning (R117).
-/
namespace Sys2Proof

/-! ## The decoder range by range (30 R114) -/

/-- Two opcode bytes with the same high nibble lie on the same side of every multiple of 16. -/
theorem lt_mul_sixteen_of_same_nibble {a b : Nat} (h : a / 16 = b / 16) (k : Nat) : a < 16 * k ↔ b < 16 * k := by
  omega

/-- Below 0x70 the decoder compares the opcode byte with multiples of 16 only. -/
theorem decode_of_same_nibble (map : List (Byte × RegName)) (m : Mode) (p q : Byte) (x : Operand)
    (hp : p.toNat < 0x70) (h : q.toNat / 16 = p.toNat / 16) :
    decode map m (mkCommand q x) = decode map m (mkCommand p x) := by
  have side := lt_mul_sixteen_of_same_nibble h
  have hq : q.toNat < 0x70 := (side 7).mpr hp
  simp only [decode, cmdOpcode_mkCommand, cmdOperand_mkCommand, hp, hq, if_true, side 1, side 2, side 3, side 4, side 5,
    side 6]

/-- From 0x78 to 0x7F the opcode byte is RELOAD_DISPLAY_PARAMETERS and no part of its operands. -/
theorem decode_displayParameters (map : List (Byte × RegName)) (m : Mode) (op : Byte) (x : Operand)
    (h : op.toNat / 8 = 0x0F) :
    decode map m (mkCommand op x) = .reloadDisplayParameters (x.getLsbD 4) (x.extractLsb' 0 4) := by
  have hlo : 0x78 ≤ op.toNat := by omega
  have hhi : op.toNat < 0x80 := by omega
  have hcmp : ∀ k ≤ 0x78, ¬ op.toNat < k := by omega
  simp [decode, hlo, hhi, hcmp]

/-- From 0x70 on, outside 0x78 to 0x7F, the opcode byte goes to the register-set dispatch. -/
theorem decode_registerNumber (map : List (Byte × RegName)) (m : Mode) (op : Byte) (x : Operand)
    (hlo : 0x70 ≤ op.toNat) (h : op.toNat / 8 ≠ 0x0F) :
    decode map m (mkCommand op x) = decodeRegset map op x := by
  have hcmp : ∀ k ≤ 0x70, ¬ op.toNat < k := by omega
  have hdp : 0x78 ≤ op.toNat → 0x80 ≤ op.toNat := by omega
  simp +contextual [decode, hcmp, hdp]

/-! ## A register-set command tells its register number (45 R251) -/

/-- The command that sets a register is encoded under that register's number. -/
theorem cmdOpcode_encode_setCommand (r : RegName) (x : Operand) : cmdOpcode (encode (r.setCommand x)) = r.number := by
  cases r <;> exact cmdOpcode_mkCommand _ _

/-- The default table lists each register under its own number. -/
theorem number_of_mem_default : ∀ e ∈ RegsetMap.default, e.2.number = e.1 := by
  decide

theorem number_of_lookup_default {op : Byte} {r : RegName} (h : RegsetMap.default.lookup op = some r) :
    r.number = op := by
  obtain ⟨before, after, hsplit, -⟩ := List.lookup_eq_some_iff.mp h
  exact number_of_mem_default (op, r) (by simp [hsplit])

/-- Encoding a command of the register-set dispatch gives its opcode byte back. -/
theorem cmdOpcode_encode_decodeRegset (op : Byte) (x : Operand) :
    cmdOpcode (encode (decodeRegset RegsetMap.default op x)) = op := by
  rw [decodeRegset]
  split
  next r hr => rw [cmdOpcode_encode_setCommand, number_of_lookup_default hr]
  next => exact cmdOpcode_mkCommand _ _

/-! ## Every command has a next state (30 R117) -/

/-- Every arm of the dispatch answers a next state, whatever the command writes. -/
theorem Machine.exec_hasNext (i : Instr) (s : Machine.State) : ∃ t, Machine.exec i s = .next t := by
  cases i <;> exact ⟨_, rfl⟩

/-! ## The obligations -/

/-- Settles O5, range by range; register numbers are told apart by the opcode byte of the encoding. -/
theorem opcodeBitsThatAreSignificant : Obligations.OpcodeBitsThatAreSignificant := by
  intro m p q x
  refine ⟨decode_of_same_nibble _ m p q x, fun hp hq => ?displayParameters, fun hp hp' hq hq' hne heq => hne ?registers⟩
  case displayParameters =>
    rw [decode_displayParameters _ m q x hq, decode_displayParameters _ m p x hp]
  case registers =>
    rw [decode_registerNumber _ m q x hq hq', decode_registerNumber _ m p x hp hp'] at heq
    calc p = cmdOpcode (encode (decodeRegset RegsetMap.default p x)) := (cmdOpcode_encode_decodeRegset p x).symm
      _ = cmdOpcode (encode (decodeRegset RegsetMap.default q x)) := by rw [heq]
      _ = q := cmdOpcode_encode_decodeRegset q x

/-- Settles O8: the decoder is total and so is every arm of the dispatch. -/
theorem everyWordHasANextState : Obligations.EveryWordHasANextState :=
  fun map m w s => Machine.exec_hasNext (decode map m w) s

end Sys2Proof
end

section
/-!
SUPPORT. 43 control commands: the words told apart by their top nibble (R112), what a command does to the walker's registers
(R211), and how a step goes on or ends the walk (R211, R214, R216).
-/
namespace Sys2Proof

/-! ## Words told apart by their top nibble (30 R112, R114) -/

/-- The top nibble of a word is the high nibble of its opcode byte. -/
theorem cmdOpcode_nibble_of_and_eq {w k : Command} (h : w &&& 0xF0000000 = k) :
    (cmdOpcode w).toNat / 16 = (cmdOpcode k).toNat / 16 := by
  have high : cmdOpcode k = cmdOpcode w &&& 0xF0 := by
    rw [← h, cmdOpcode, BitVec.extractLsb'_and, cmdOpcode]
    congr 1
  have low : ∀ b : Byte, (b &&& 0xF0).toNat / 16 = b.toNat / 16 := by decide
  rw [high, low]

/-- Below 0x70 a word decodes as the one with the opcode byte its top nibble gives, whatever the low nibble of its own. -/
theorem decode_of_top_nibble (map : List (Byte × RegName)) (m : Mode) {w k : Command} (h : w &&& 0xF0000000 = k)
    (hk : (cmdOpcode k).toNat < 0x70) : decode map m w = decode map m (mkCommand (cmdOpcode k) (cmdOperand w)) := by
  conv_lhs => rw [← mkCommand_fields w]
  exact decode_of_same_nibble map m _ _ _ hk (cmdOpcode_nibble_of_and_eq h)

theorem decode_stop_of_top_nibble (map : List (Byte × RegName)) (m : Mode) {w : Command} (h : w &&& 0xF0000000 = 0) :
    decode map m w = .stop := by
  rw [decode_of_top_nibble map m h (by decide), show cmdOpcode 0 = 0x00 by decide]
  simp [decode]

theorem decode_nop_of_top_nibble (map : List (Byte × RegName)) (m : Mode) {w : Command}
    (h : w &&& 0xF0000000 = 0x10000000) : decode map m w = .nop := by
  rw [decode_of_top_nibble map m h (by decide), show cmdOpcode 0x10000000 = 0x10 by decide]
  simp [decode]

theorem decode_reloadDcpInert_of_top_nibble (map : List (Byte × RegName)) {w : Command}
    (h : w &&& 0xF0000000 = 0x20000000) : decode map .dca w = .reloadDcpInert := by
  rw [decode_of_top_nibble map .dca h (by decide), show cmdOpcode 0x20000000 = 0x20 by decide]
  simp [decode]

/-! ## The commands that halt (43 R214) -/

/-- The commands after which an invocation is over: STOP, RELOAD_DCP_STOP and RELOAD_VSR_STOP (R214). -/
def Instr.halts : Instr → Bool
  | .stop | .reloadDcpStop _ | .reloadVsrStop _ => true
  | _ => false

theorem Instr.halts_iff_mnemonic (i : Instr) :
    i.halts = true ↔ i.mnemonic = "STOP" ∨ i.mnemonic = "RELOAD_DCP_STOP" ∨ i.mnemonic = "RELOAD_VSR_STOP" := by
  cases i <;> simp [Instr.halts, Instr.mnemonic]

namespace Machine

/-! ## The meanings of the control commands that load no address (43 R218, R220, R223) -/

theorem exec_stop (s : State) : exec .stop s = .next (setStop s) := rfl

theorem exec_nop (s : State) : exec .nop s = .next s := rfl

theorem exec_reloadDcpInert (s : State) : exec .reloadDcpInert s = .next (logEvent s .reloadDcpInDca) := rfl

/-- A state with other walker's registers and another log differs in nothing else. -/
theorem onlyWalkAndLog_update (s : State) (w : Walker) (l : List LogEvent) :
    onlyWalkAndLog s { s with walk := w, log := l } :=
  ⟨⟨rfl, rfl, rfl, rfl, rfl, rfl, rfl, rfl, rfl, rfl, rfl, rfl, rfl, planeByte_congr s _ rfl rfl rfl rfl⟩, rfl, rfl, rfl, rfl⟩

/-! ## What a command does to the walker's registers (43 R211) -/

@[simp] theorem writeOwned_walk (s : State) (o : Channel) (f : DisplayRegs → DisplayRegs) :
    (writeOwned s o f).walk = s.walk := by
  rw [writeOwned_frame]

@[simp] theorem writeOwn_walk (s : State) (f : DisplayChannel → DisplayChannel) : (writeOwn s f).walk = s.walk := rfl

@[simp] theorem setDcp_walk (s : State) (c : Channel) (a : Nat) : (setDcp s c a).walk = s.walk := rfl

@[simp] theorem setVsr_walk (s : State) (c : Channel) (a : Nat) : (setVsr s c a).walk = s.walk := rfl

@[simp] theorem raiseInterrupt_walk (s : State) : (raiseInterrupt s).walk = s.walk := by
  rw [raiseInterrupt_frame]

/-- A command can move `ip` and mark DCP as reloaded, and it halts the walk exactly if it is one of the three that halt;
channel, mode, count and cap stay (R211, R214). -/
theorem exec_walk {i : Instr} {s t : State} (h : exec i s = .next t) :
    t.walk = { s.walk with
      ip := t.walk.ip, dcpReloaded := t.walk.dcpReloaded, stop := s.walk.stop || i.halts } := by
  cases i
  case stop | reloadDcpStop | reloadVsrStop =>
    cases h
    simp [Instr.halts]
  case reloadIca =>
    cases h
    simp [Instr.halts]
  -- Every other command writes display registers, lines or the log, and halts nothing.
  all_goals
    cases h
    simp [Instr.halts]

/-! ## A step inside a walk goes on or ends the walk (43 R211, R213) -/

theorem walkOver_eq_false_iff (s : State) :
    walkOver s = false ↔ s.walk.stop = false ∧ (s.walk.mode = .ica ∨ s.walk.count ≠ s.walk.max) := by
  cases hm : s.walk.mode <;> simp [walkOver, hm]

theorem step_of_exec {s t : State} (hrun : s.walk.running = true) (hexec : exec (nextCommand s) (advance s) = .next t) :
    step s = .next (afterCommand t) := by
  rw [step_running s hrun, commandStep, hexec]

/-- A command that leaves the walk unhalted and below its cap is the whole step. -/
theorem step_of_exec_goes_on {s t : State} (hrun : s.walk.running = true)
    (hexec : exec (nextCommand s) (advance s) = .next t) (hstop : t.walk.stop = false)
    (hcap : t.walk.mode = .ica ∨ t.walk.count ≠ t.walk.max) : step s = .next t := by
  rw [step_of_exec hrun hexec, afterCommand, (walkOver_eq_false_iff t).mpr ⟨hstop, hcap⟩]
  rfl

/-- After a command that halts the walk, the step ends the walk and goes on with the event. -/
theorem step_of_exec_halts {s t : State} (hrun : s.walk.running = true)
    (hexec : exec (nextCommand s) (advance s) = .next t) (hstop : t.walk.stop = true) :
    step s = .next (afterWalk (endWalk t) t.walk.chan t.walk.mode) := by
  have hover : walkOver t = true := by simp [walkOver, hstop]
  rw [step_of_exec hrun hexec, afterCommand, hover]
  rfl

theorem step_of_nextCommand_stop {s : State} (hrun : s.walk.running = true) (hnext : nextCommand s = .stop) :
    step s = .next (afterWalk (endWalk (setStop (advance s))) s.walk.chan s.walk.mode) :=
  step_of_exec_halts hrun (by rw [hnext, exec_stop]) rfl

/-! ## After the end of an ICA walk (43 R216, 47 R323) -/

/-- An ICA walk writes nothing back (R216). -/
theorem endWalk_of_ica {s : State} (h : s.walk.mode = .ica) : endWalk s = { s with walk := Walker.idle } := by
  obtain ⟨hdca, -, -⟩ | ⟨-, hend⟩ := endWalk_cases s
  · rw [h] at hdca
    cases hdca
  · exact hend

/-- After a walk the line is finished, or channel 1's walk follows channel 0's. -/
theorem afterWalk_cases (s : State) (c : Channel) (m : Mode) :
    afterWalk s c m = finishLine s ∨ (c = .a ∧ afterWalk s c m = startWalk s .b m) := by
  cases c with
  | a =>
    obtain ⟨-, h⟩ | ⟨-, h⟩ := walkB_cases s m
    · exact .inr ⟨rfl, h⟩
    · exact .inl h
  | b => exact .inl rfl

/-! ## The steps of an ICA (43 R214) -/

/-- Inside an ICA walk a step ends the walk exactly after a command that halts. -/
theorem step_ica {s t : State} (hrun : s.walk.running = true) (hica : s.walk.mode = .ica) (hstop : s.walk.stop = false)
    (hexec : exec (nextCommand s) (advance s) = .next t) :
    step s = .next (if (nextCommand s).halts = true then afterWalk (endWalk t) s.walk.chan .ica else t) := by
  have hwalk := exec_walk hexec
  have hchan : t.walk.chan = s.walk.chan := by rw [hwalk]; rfl
  have hmode : t.walk.mode = .ica := by rw [hwalk]; exact hica
  have hhalts : t.walk.stop = (nextCommand s).halts := by rw [hwalk]; simp [hstop]
  split
  next h => rw [step_of_exec_halts hrun hexec (hhalts.trans h), hchan, hmode]
  next h => exact step_of_exec_goes_on hrun hexec (hhalts.trans (Bool.eq_false_iff.mpr h)) (.inl hmode)

/-- The step that runs a STOP of an ICA finishes the line, or starts channel 1's ICA after channel 0's. -/
theorem step_ica_stop {s : State} (hrun : s.walk.running = true) (hica : s.walk.mode = .ica)
    (hnext : nextCommand s = .stop) :
    step s = .next (finishLine { advance s with walk := Walker.idle })
    ∨ (s.walk.chan = .a ∧ step s = .next (startWalk { advance s with walk := Walker.idle } .b .ica)) := by
  have hend : endWalk (setStop (advance s)) = { advance s with walk := Walker.idle } := endWalk_of_ica hica
  rw [step_of_nextCommand_stop hrun hnext, hend, hica]
  obtain h | ⟨ha, h⟩ := afterWalk_cases { advance s with walk := Walker.idle } s.walk.chan .ica
  · exact .inl (by rw [h])
  · exact .inr ⟨ha, by rw [h]⟩

end Machine

open Machine

/-! ## The obligations -/

/-- Settles O11: the two nibbles by decode, the two effects, and the steps that end the walk and go on with it. -/
theorem stopHaltsAndNopHasNoEffect : Obligations.StopHaltsAndNopHasNoEffect := by
  refine ⟨fun map m w => ⟨decode_stop_of_top_nibble map m, decode_nop_of_top_nibble map m⟩,
    fun s => ⟨setStop s, exec_stop s, onlyWalkAndLog_update s _ s.log, rfl, rfl⟩,
    fun s => step_of_nextCommand_stop, exec_nop, fun s hrun hnext hstop hcap => ?nopGoesOn⟩
  case nopGoesOn =>
    exact ⟨advance s, s.freeCount + 4, step_of_exec_goes_on hrun (by rw [hnext, exec_nop]) hstop hcap,
      onlyWalkAndLog_update { s with freeCount := s.freeCount + 4 } _ s.log, rfl, rfl⟩

/-- Settles O12: the nibble by decode, the effect, and the step that goes on with the walk. -/
theorem reloadDcpInDcaIsInert : Obligations.ReloadDcpInDcaIsInert := by
  refine ⟨fun map w => decode_reloadDcpInert_of_top_nibble map,
    fun s => ⟨logEvent s .reloadDcpInDca, exec_reloadDcpInert s, onlyWalkAndLog_update s s.walk _, rfl, rfl⟩,
    fun s hrun _ hnext hstop hcap => ?goesOn⟩
  case goesOn =>
    exact ⟨logEvent (advance s) .reloadDcpInDca, s.freeCount + 4,
      step_of_exec_goes_on hrun (by rw [hnext, exec_reloadDcpInert]) hstop (.inr hcap),
      onlyWalkAndLog_update { s with freeCount := s.freeCount + 4 } _ _, rfl, rfl⟩

/-- Settles O31: a step of an ICA ends it exactly after a command that halts, and a STOP's own step is one of two. -/
theorem icaEndsAtItsFirstStop : Obligations.IcaEndsAtItsFirstStop := by
  refine ⟨fun s t hrun hica hstop hexec => ?firstStop, fun s c => rfl, fun s hrun hica hnext => ?singleStop⟩
  case firstStop =>
    simp only [← Instr.halts_iff_mnemonic]
    exact step_ica hrun hica hstop hexec
  case singleStop =>
    obtain hfinish | ⟨ha, hstart⟩ := step_ica_stop hrun hica hnext
    · exact ⟨_, hfinish, fun c => by cases c <;> rfl, rfl, rfl, .inl ⟨rfl, rfl⟩⟩
    · exact ⟨_, hstart, fun c => by cases c <;> rfl, rfl, rfl, .inr ⟨ha, rfl, rfl, rfl, rfl, rfl⟩⟩

end Sys2Proof
end

section
/-!
SUPPORT. 60 exceptions: two assertions of one interrupt line in a row (R351).
-/
namespace Sys2Proof.Machine

/-! ## A line asserted again (60 R351) -/

/-- A second assertion of a line overrides the first: nothing of the earlier vector stays behind. -/
theorem assertLine_assertLine_same (s : State) (n : IrqLine) (v w : Nat) :
    assertLine (assertLine s n v) n w = assertLine s n w := by
  have hirq : (assertLine (assertLine s n v) n w).irq = (assertLine s n w).irq := by
    simp only [irq_assertLine, Vector.set_set]
  calc assertLine (assertLine s n v) n w
      = { s with irq := (assertLine (assertLine s n v) n w).irq } := rfl
    _ = assertLine s n w := by rw [hirq]; rfl

/-! ## The obligations -/

/-- Settles O51: the named line and the others by the one rule for a line after an assertion, and a line raised
before by the rule for two assertions in a row. -/
theorem assertRaisesOneLine : Obligations.AssertRaisesOneLine := by
  refine fun s n k v w => ⟨rfl, ?namedLine, fun hk => ?otherLine, assertLine_assertLine_same s n v w⟩
  case namedLine => rw [assertLine_port, if_pos rfl]
  case otherLine => rw [assertLine_port, if_neg hk]

end Sys2Proof.Machine
end

section
/-!
SUPPORT. 30 encoding: what the decoder reads, range by range of the opcode byte (R112, R114), and how it meets the encoder (R111,
R120) and the opcode table (R114).
-/
namespace Sys2Proof

/-! ## Every way the decoder can read a word (30 R114, R116, 45 R280) -/

/-- The rows of the decoder: what it reads from opcode byte `op` and operand `x` in mode `m` under a register numbering. -/
inductive Reads (map : List (Byte × RegName)) (m : Mode) (op : Byte) (x : Operand) : Instr → Prop where
  | stop (h : op.toNat / 16 = 0) : Reads map m op x .stop
  | nop (h : op.toNat / 16 = 1) : Reads map m op x .nop
  | reloadDcp (h : op.toNat / 16 = 2) (hm : m = .ica) : Reads map m op x (.reloadDcp (operandAddr x))
  | reloadDcpInert (h : op.toNat / 16 = 2) (hm : m = .dca) : Reads map m op x .reloadDcpInert
  | reloadDcpStop (h : op.toNat / 16 = 3) : Reads map m op x (.reloadDcpStop (operandAddr x))
  | reloadIca (h : op.toNat / 16 = 4) (hm : m = .ica) : Reads map m op x (.reloadIca (operandAddr x))
  | reloadVsr (h : op.toNat / 16 = 4) (hm : m = .dca) : Reads map m op x (.reloadVsr (operandAddr x))
  | reloadVsrStop (h : op.toNat / 16 = 5) : Reads map m op x (.reloadVsrStop (operandAddr x))
  | interrupt (h : op.toNat / 16 = 6) : Reads map m op x .interrupt
  | displayParameters (h : op.toNat / 8 = 0x0F) :
      Reads map m op x (.reloadDisplayParameters (x.getLsbD 4) (x.extractLsb' 0 4))
  | register (r : RegName) (hlo : 0x70 ≤ op.toNat) (hdp : op.toNat / 8 ≠ 0x0F) (h : map.lookup op = some r) :
      Reads map m op x (r.setCommand x)
  | unassigned (hlo : 0x70 ≤ op.toNat) (hdp : op.toNat / 8 ≠ 0x0F) (h : map.lookup op = none) :
      Reads map m op x (.regsetUnassigned op)

/-- Below 0x70 the decoder reads a word as the one whose opcode byte has the same high nibble and low nibble 0. -/
theorem decode_of_nibble (map : List (Byte × RegName)) (m : Mode) (op : Byte) (x : Operand) (k : Byte)
    (hk : k.toNat < 0x70) (h : op.toNat / 16 = k.toNat / 16) :
    decode map m (mkCommand op x) = decode map m (mkCommand k x) :=
  decode_of_same_nibble map m k op x hk h

/-- A row that reads a word says what the word decodes to. -/
theorem Reads.decode_eq {map : List (Byte × RegName)} {m : Mode} {op : Byte} {x : Operand} {i : Instr}
    (h : Reads map m op x i) : decode map m (mkCommand op x) = i := by
  cases h with
  | stop h => rw [decode_of_nibble map m op x 0x00 (by decide) h]; simp [decode]
  | nop h => rw [decode_of_nibble map m op x 0x10 (by decide) h]; simp [decode]
  | reloadDcp h hm => rw [decode_of_nibble map m op x 0x20 (by decide) h, hm]; simp [decode]
  | reloadDcpInert h hm => rw [decode_of_nibble map m op x 0x20 (by decide) h, hm]; simp [decode]
  | reloadDcpStop h => rw [decode_of_nibble map m op x 0x30 (by decide) h]; simp [decode]
  | reloadIca h hm => rw [decode_of_nibble map m op x 0x40 (by decide) h, hm]; simp [decode]
  | reloadVsr h hm => rw [decode_of_nibble map m op x 0x40 (by decide) h, hm]; simp [decode]
  | reloadVsrStop h => rw [decode_of_nibble map m op x 0x50 (by decide) h]; simp [decode]
  | interrupt h => rw [decode_of_nibble map m op x 0x60 (by decide) h]; simp [decode]
  | displayParameters h => exact decode_displayParameters map m op x h
  | register r hlo hdp h => rw [decode_registerNumber map m op x hlo hdp, decodeRegset, h]
  | unassigned hlo hdp h => rw [decode_registerNumber map m op x hlo hdp, decodeRegset, h]

/-- Every word is read by some row (30 R117). -/
theorem exists_reads (map : List (Byte × RegName)) (m : Mode) (op : Byte) (x : Operand) : ∃ i, Reads map m op x i := by
  have hop := op.isLt
  have range : op.toNat / 16 = 0 ∨ op.toNat / 16 = 1 ∨ op.toNat / 16 = 2 ∨ op.toNat / 16 = 3 ∨ op.toNat / 16 = 4
      ∨ op.toNat / 16 = 5 ∨ op.toNat / 16 = 6 ∨ op.toNat / 8 = 0x0F ∨ (0x70 ≤ op.toNat ∧ op.toNat / 8 ≠ 0x0F) := by
    omega
  obtain h | h | h | h | h | h | h | h | ⟨hlo, hdp⟩ := range
  · exact ⟨_, .stop h⟩
  · exact ⟨_, .nop h⟩
  · cases m
    · exact ⟨_, .reloadDcp h rfl⟩
    · exact ⟨_, .reloadDcpInert h rfl⟩
  · exact ⟨_, .reloadDcpStop h⟩
  · cases m
    · exact ⟨_, .reloadIca h rfl⟩
    · exact ⟨_, .reloadVsr h rfl⟩
  · exact ⟨_, .reloadVsrStop h⟩
  · exact ⟨_, .interrupt h⟩
  · exact ⟨_, .displayParameters h⟩
  · cases h : map.lookup op with
    | none => exact ⟨_, .unassigned hlo hdp h⟩
    | some r => exact ⟨_, .register r hlo hdp h⟩

/-- The rows read exactly what the decoder answers. -/
theorem reads_decode (map : List (Byte × RegName)) (m : Mode) (op : Byte) (x : Operand) :
    Reads map m op x (decode map m (mkCommand op x)) := by
  obtain ⟨i, h⟩ := exists_reads map m op x
  rwa [h.decode_eq]

/-! ## The default register numbers (45 R251, R280) -/

theorem lookup_default_number (r : RegName) : RegsetMap.default.lookup r.number = some r := by
  have clut : ∀ slot : BitVec 6, RegsetMap.default.lookup (RegName.clut slot).number = some (.clut slot) := by decide
  have rc : ∀ n : BitVec 3, RegsetMap.default.lookup (RegName.rc n).number = some (.rc n) := by decide
  cases r with
  | clut slot => exact clut slot
  | rc n => exact rc n
  | _ => decide

theorem number_range (r : RegName) : 0x80 ≤ r.number.toNat := by
  have clut : ∀ slot : BitVec 6, 0x80 ≤ (RegName.clut slot).number.toNat := by decide
  have rc : ∀ n : BitVec 3, 0x80 ≤ (RegName.rc n).number.toNat := by decide
  cases r with
  | clut slot => exact clut slot
  | rc n => exact rc n
  | _ => decide

/-- Under a register's own number the decoder reads the command that sets it. -/
theorem decode_number (m : Mode) (r : RegName) (x : Operand) :
    decode RegsetMap.default m (mkCommand r.number x) = r.setCommand x := by
  have hr := number_range r
  exact (Reads.register r (by omega) (by omega) (lookup_default_number r)).decode_eq

/-- From 0x70 on, outside 0x78 to 0x7F, the default table leaves out exactly the unassigned opcodes. -/
theorem lookup_default_eq_none_iff : ∀ op : Byte, 0x70 ≤ op.toNat → op.toNat / 8 ≠ 0x0F →
    (RegsetMap.default.lookup op = none ↔ unassignedOpcode op = true) := by
  decide

/-- No row but the register-set dispatch takes an unassigned opcode. -/
theorem unassignedOpcode_range : ∀ op : Byte, unassignedOpcode op = true → 0x70 ≤ op.toNat ∧ op.toNat / 8 ≠ 0x0F := by
  decide

/-! ## Fields of the operand (30 R111) -/

/-- A field read back from the operand it was written into, in the lowest bits. -/
@[simp] theorem extractLsb'_setWidth_of_le {n w : Nat} (f : BitVec n) (h : n ≤ w) :
    (f.setWidth w).extractLsb' 0 n = f := by
  apply BitVec.eq_of_toNat_eq
  have hlt : f.toNat < 2 ^ w := Nat.lt_of_lt_of_le f.isLt (Nat.pow_le_pow_right (by decide) h)
  simp [BitVec.extractLsb'_toNat, Nat.mod_eq_of_lt hlt, Nat.mod_eq_of_lt f.isLt]

/-- Masking all but the lowest `n` bits is writing the field of `n` bits into an empty operand. -/
theorem and_lowMask {w : Nat} (n : Nat) (x : BitVec w) :
    x &&& BitVec.ofNat w (2 ^ n - 1) = (x.extractLsb' 0 n).setWidth w := by
  apply BitVec.eq_of_getLsbD_eq
  intro i hi
  rw [BitVec.getLsbD_and, BitVec.getLsbD_ofNat, BitVec.getLsbD_setWidth, BitVec.getLsbD_extractLsb',
    Nat.testBit_two_pow_sub_one]
  simp [hi, Bool.and_comm]

@[simp] theorem operandAddr_addrOperand (addr : Addr21) : operandAddr (addrOperand addr) = addr :=
  extractLsb'_setWidth_of_le addr (by decide)

/-- The two fields of a cursor pattern command are the lowest 20 bits (format RP). -/
theorem patternFields_eq (x : Operand) : (x.extractLsb' 16 4 ++ x.extractLsb' 0 16 : BitVec 20) = x.extractLsb' 0 20 :=
  BitVec.extractLsb'_append_extractLsb'_eq_extractLsb' (by decide)

/-- Colour mode and parameter nibble are the lowest 5 bits (format D). -/
theorem parameterFields_eq (x : Operand) :
    (BitVec.ofBool (x.getLsbD 4) ++ x.extractLsb' 0 4 : BitVec 5) = x.extractLsb' 0 5 := by
  have bit : BitVec.ofBool (x.getLsbD 4) = x.extractLsb' 4 1 := by
    apply BitVec.eq_of_getLsbD_eq
    intro i hi
    simp [show i = 0 by omega]
  rw [bit]
  exact BitVec.extractLsb'_append_extractLsb'_eq_extractLsb' (by decide)

/-- A field of an operand that a narrower value was written into, in the lowest bits, is that value's. -/
theorem extractLsb'_setWidth {w v : Nat} (x : BitVec w) (lo k : Nat) (h : lo + k ≤ v) :
    (x.setWidth v).extractLsb' lo k = x.extractLsb' lo k := by
  apply BitVec.eq_of_getLsbD_eq
  intro i hi
  simp [hi, show lo + i < v by omega]

theorem colorMode_of_fields (cm : Bool) (dp : BitVec 4) :
    ((BitVec.ofBool cm ++ dp).setWidth 24 : Operand).getLsbD 4 = cm := by
  rw [BitVec.getLsbD_setWidth, BitVec.getLsbD_append]
  simp

theorem nibble_of_fields (cm : Bool) (dp : BitVec 4) :
    ((BitVec.ofBool cm ++ dp).setWidth 24 : Operand).extractLsb' 0 4 = dp := by
  rw [extractLsb'_setWidth _ _ _ (by decide), BitVec.extractLsb'_append_eq_right]

theorem index_of_fields (index : BitVec 4) (word : Half) :
    ((index ++ word).setWidth 24 : Operand).extractLsb' 16 4 = index := by
  rw [extractLsb'_setWidth _ _ _ (by decide), BitVec.extractLsb'_append_eq_left]

theorem word_of_fields (index : BitVec 4) (word : Half) :
    ((index ++ word).setWidth 24 : Operand).extractLsb' 0 16 = word := by
  rw [extractLsb'_setWidth _ _ _ (by decide), BitVec.extractLsb'_append_eq_right]

/-- A format with no operand bits leaves the operand empty. -/
theorem emptyField (x : Operand) : (x.extractLsb' 0 0).setWidth 24 = 0 := by
  simp

/-- A field inside the lowest `n` bits is a field of those. -/
theorem extractLsb'_eq_of_low {n w : Nat} {x y : BitVec w} (h : y.extractLsb' 0 n = x.extractLsb' 0 n) (lo k : Nat)
    (hk : lo + k ≤ n) : y.extractLsb' lo k = x.extractLsb' lo k := by
  apply BitVec.eq_of_getLsbD_eq
  intro i hi
  have bit := congrArg (fun z => z.getLsbD (lo + i)) h
  simpa [hi, show lo + i < n by omega] using bit

/-! ## Significant bits: opcode byte and operand apart (30 R111, R112) -/

/-- The bits of the opcode byte a command depends on (R112). -/
def Instr.opcodeMask : Instr → Byte
  | .stop | .nop | .reloadDcp _ | .reloadDcpInert | .reloadDcpStop _ | .reloadIca _ | .reloadVsr _ | .reloadVsrStop _
  | .interrupt => 0xF0
  | .reloadDisplayParameters _ _ => 0xF8
  | .regsetUnassigned _ | .setClutBank _ | .setCurpat _ _
  | .setClut _ _ | .setIcm _ | .setTcr _ | .setPor _ | .setTca _ | .setTcb _ | .setMca _ | .setMcb _ | .setDyuva _
  | .setDyuvb _ | .setCurpos _ | .setCurcnt _ | .setRc _ _ | .setBackdrop _ | .setMha _ | .setMhb _ | .setWfa _ | .setWfb _ => 0xFF

/-- How many of the lowest operand bits a command's format has (R111). -/
def Instr.operandBits : Instr → Nat
  | .stop | .nop | .reloadDcpInert | .interrupt | .regsetUnassigned _ => 0
  | .reloadDcp _ | .reloadDcpStop _ | .reloadIca _ | .reloadVsr _ | .reloadVsrStop _ => 21
  | .reloadDisplayParameters _ _ => 5
  | .setClutBank _ => 2
  | .setCurpat _ _ => 20
  | .setClut _ _ | .setIcm _ | .setTcr _ | .setPor _ | .setTca _ | .setTcb _ | .setMca _ | .setMcb _ | .setDyuva _
  | .setDyuvb _ | .setCurpos _ | .setCurcnt _ | .setRc _ _ | .setBackdrop _ | .setMha _ | .setMhb _ | .setWfa _ | .setWfb _ => 24

theorem significantMask_eq (i : Instr) :
    significantMask i = mkCommand i.opcodeMask (BitVec.ofNat 24 (2 ^ i.operandBits - 1)) := by
  cases i <;> simp only [significantMask, Instr.opcodeMask, Instr.operandBits] <;> decide

theorem mkCommand_and (p q : Byte) (x y : Operand) : mkCommand p x &&& mkCommand q y = mkCommand (p &&& q) (x &&& y) :=
  BitVec.and_append

/-- A word with its insignificant bits cleared: the opcode byte masked, and the operand's field alone. -/
theorem and_significantMask (op : Byte) (x : Operand) (i : Instr) :
    mkCommand op x &&& significantMask i
      = mkCommand (op &&& i.opcodeMask) ((x.extractLsb' 0 i.operandBits).setWidth 24) := by
  rw [significantMask_eq, mkCommand_and, and_lowMask]

theorem operandBits_le (i : Instr) : i.operandBits ≤ 24 := by
  cases i <;> simp [Instr.operandBits]

/-- Words that agree on the significant bits of a command agree on its opcode bits and on its operand field. -/
theorem fields_of_and_significantMask {p q : Byte} {x y : Operand} {i : Instr}
    (h : mkCommand q y &&& significantMask i = mkCommand p x &&& significantMask i) :
    q &&& i.opcodeMask = p &&& i.opcodeMask
    ∧ y.extractLsb' 0 i.operandBits = x.extractLsb' 0 i.operandBits := by
  rw [and_significantMask, and_significantMask] at h
  refine ⟨by simpa using congrArg cmdOpcode h, ?_⟩
  simpa [extractLsb'_setWidth_of_le _ (operandBits_le i)]
    using congrArg (fun w => (cmdOperand w).extractLsb' 0 i.operandBits) h

/-! ### What the opcode masks keep -/

theorem and_nibbleMask : ∀ op : Byte, op &&& 0xF0 = BitVec.ofNat 8 (16 * (op.toNat / 16)) := by
  decide

theorem and_parameterMask : ∀ op : Byte, op &&& 0xF8 = BitVec.ofNat 8 (8 * (op.toNat / 8)) := by
  decide

theorem nibble_eq_of_and_eq {p q : Byte} (h : q &&& 0xF0 = p &&& 0xF0) : q.toNat / 16 = p.toNat / 16 := by
  have hp := p.isLt
  have hq := q.isLt
  have := congrArg BitVec.toNat h
  simp only [and_nibbleMask, BitVec.toNat_ofNat] at this
  omega

theorem parameterRange_eq_of_and_eq {p q : Byte} (h : q &&& 0xF8 = p &&& 0xF8) : q.toNat / 8 = p.toNat / 8 := by
  have hp := p.isLt
  have hq := q.isLt
  have := congrArg BitVec.toNat h
  simp only [and_parameterMask, BitVec.toNat_ofNat] at this
  omega

theorem and_fullMask (op : Byte) : op &&& 0xFF = op :=
  BitVec.and_allOnes

/-! ### Register-set commands -/

theorem opcodeMask_setCommand (r : RegName) (x : Operand) : (r.setCommand x).opcodeMask = 0xFF := by
  cases r <;> rfl

/-- A register-set command is encoded under its register's number, with the bits of its field alone. -/
theorem encode_setCommand (r : RegName) (x : Operand) :
    encode (r.setCommand x) = mkCommand r.number ((x.extractLsb' 0 (r.setCommand x).operandBits).setWidth 24) := by
  have whole : x = (x.extractLsb' 0 24).setWidth 24 := by simp
  cases r
  case clutBank => rfl
  case curpat => exact congrArg (fun f : BitVec 20 => mkCommand _ (f.setWidth 24)) (patternFields_eq x)
  all_goals exact congrArg (mkCommand _) whole

/-- A register-set command reads no operand bit outside its field. -/
theorem setCommand_of_field (r : RegName) (x y : Operand)
    (h : y.extractLsb' 0 (r.setCommand x).operandBits = x.extractLsb' 0 (r.setCommand x).operandBits) :
    r.setCommand y = r.setCommand x := by
  cases r
  case clutBank => exact congrArg Instr.setClutBank h
  case curpat =>
    have field : y.extractLsb' 0 20 = x.extractLsb' 0 20 := h
    exact congrArg₂ Instr.setCurpat (extractLsb'_eq_of_low field 16 4 (by decide))
      (extractLsb'_eq_of_low field 0 16 (by decide))
  all_goals
    have whole : y = x := by simpa [RegName.setCommand, Instr.operandBits] using h
    rw [whole]

/-! ## The rows and the encoder -/

/-- Encoding the command a row reads gives the word back with its insignificant bits cleared. -/
theorem Reads.encode_eq {m : Mode} {op : Byte} {x : Operand} {i : Instr} (h : Reads RegsetMap.default m op x i) :
    encode i = mkCommand op x &&& significantMask i := by
  rw [and_significantMask]
  cases h with
  | displayParameters h =>
    have high : op &&& 0xF8 = 0x78 := by
      rw [and_parameterMask, h]
      decide
    exact congrArg₂ (fun p (f : BitVec 5) => mkCommand p (f.setWidth 24)) high.symm (parameterFields_eq x)
  | register r hlo hdp h => rw [opcodeMask_setCommand, and_fullMask, encode_setCommand, number_of_lookup_default h]
  | unassigned =>
    simp only [Instr.opcodeMask, and_fullMask, Instr.operandBits, emptyField, encode]
  | stop h | nop h | reloadDcpInert h | interrupt h =>
    simp only [Instr.opcodeMask, Instr.operandBits, and_nibbleMask, h, emptyField, encode]
    decide
  | reloadDcp h | reloadDcpStop h | reloadIca h | reloadVsr h | reloadVsrStop h =>
    simp only [Instr.opcodeMask, Instr.operandBits, and_nibbleMask, h]
    rfl

/-- A word that agrees with one a row reads on the significant bits is read by the same row as the same command. -/
theorem Reads.of_agree {map : List (Byte × RegName)} {m : Mode} {p q : Byte} {x y : Operand} {i : Instr}
    (h : Reads map m p x i) (hop : q &&& i.opcodeMask = p &&& i.opcodeMask)
    (hfield : y.extractLsb' 0 i.operandBits = x.extractLsb' 0 i.operandBits) : Reads map m q y i := by
  have addr (hi : i.operandBits = 21) : operandAddr y = operandAddr x := extractLsb'_eq_of_low hfield 0 21 hi.ge
  have nibble (hi : i.opcodeMask = 0xF0) : q.toNat / 16 = p.toNat / 16 := nibble_eq_of_and_eq (hi ▸ hop)
  cases h with
  | stop h => exact .stop ((nibble rfl).trans h)
  | nop h => exact .nop ((nibble rfl).trans h)
  | reloadDcp h hm => exact addr rfl ▸ .reloadDcp ((nibble rfl).trans h) hm
  | reloadDcpInert h hm => exact .reloadDcpInert ((nibble rfl).trans h) hm
  | reloadDcpStop h => exact addr rfl ▸ .reloadDcpStop ((nibble rfl).trans h)
  | reloadIca h hm => exact addr rfl ▸ .reloadIca ((nibble rfl).trans h) hm
  | reloadVsr h hm => exact addr rfl ▸ .reloadVsr ((nibble rfl).trans h) hm
  | reloadVsrStop h => exact addr rfl ▸ .reloadVsrStop ((nibble rfl).trans h)
  | interrupt h => exact .interrupt ((nibble rfl).trans h)
  | displayParameters h =>
    have field : y.extractLsb' 0 5 = x.extractLsb' 0 5 := hfield
    have bit : y.getLsbD 4 = x.getLsbD 4 := by simpa using congrArg (fun z => z.getLsbD 4) field
    rw [← bit, ← extractLsb'_eq_of_low field 0 4 (by decide)]
    exact .displayParameters ((parameterRange_eq_of_and_eq hop).trans h)
  | register r hlo hdp h =>
    have same : q = p := by simpa only [opcodeMask_setCommand, and_fullMask] using hop
    rw [← setCommand_of_field r x y hfield, same]
    exact .register r hlo hdp h
  | unassigned hlo hdp h =>
    have same : q = p := by simpa only [Instr.opcodeMask, and_fullMask] using hop
    rw [same]
    exact .unassigned hlo hdp h

/-- The register set has its commands in both modes (R116). -/
theorem setCommand_wellFormed (m : Mode) (r : RegName) (x : Operand) :
    (r.setCommand x).wellFormed = true ∧ (r.setCommand x).validIn m = true := by
  cases r <;> exact ⟨rfl, rfl⟩

/-- Every row answers a command the language has in the mode asked for. -/
theorem Reads.wellFormed {m : Mode} {op : Byte} {x : Operand} {i : Instr} (h : Reads RegsetMap.default m op x i) :
    i.wellFormed = true ∧ i.validIn m = true := by
  cases h with
  | register r => exact setCommand_wellFormed m r x
  | unassigned hlo hdp h => exact ⟨(lookup_default_eq_none_iff op hlo hdp).mp h, rfl⟩
  | reloadDcp _ hm | reloadDcpInert _ hm | reloadIca _ hm | reloadVsr _ hm => exact ⟨rfl, beq_iff_eq.mpr hm⟩
  | stop | nop | reloadDcpStop | reloadVsrStop | interrupt | displayParameters => exact ⟨rfl, rfl⟩

/-- A number with no register is read exactly from an unassigned opcode (45 R280). -/
theorem Reads.unassigned_iff {m : Mode} {op : Byte} {x : Operand} {i : Instr} (h : Reads RegsetMap.default m op x i) :
    (∃ reg, i = .regsetUnassigned reg) ↔ unassignedOpcode op = true := by
  cases h with
  | register r hlo hdp h =>
    rw [← lookup_default_eq_none_iff op hlo hdp, h]
    cases r <;> simp [RegName.setCommand]
  | unassigned hlo hdp h => simpa using (lookup_default_eq_none_iff op hlo hdp).mp h
  | _ => 
    simp only [reduceCtorEq, exists_false, false_iff]
    intro hop
    have range := unassignedOpcode_range op hop
    omega

/-! ## The rows and the opcode table (30 R114) -/

/-- No row of the table looks at the operand. -/
theorem operand_of_row : ∀ r ∈ opcodeTable, cmdOperand r.mask = 0 ∧ cmdOperand r.pattern = 0 := by
  decide

/-- Whether a row of the table covers a word is a matter of the opcode byte. -/
theorem covers_mkCommand {r : OpcodeRow} (hr : r ∈ opcodeTable) (m : Mode) (op : Byte) (x : Operand) :
    r.covers m (mkCommand op x) = r.covers m (mkCommand op 0) := by
  obtain ⟨hmask, -⟩ := operand_of_row r hr
  have same : mkCommand op x &&& r.mask = mkCommand op 0 &&& r.mask := by
    rw [← mkCommand_fields r.mask, hmask, mkCommand_and, mkCommand_and]
    simp
  rw [OpcodeRow.covers, OpcodeRow.covers, same]

/-- So is the mnemonic of the command read. -/
theorem mnemonic_decode_mkCommand (map : List (Byte × RegName)) (m : Mode) (op : Byte) (x : Operand) :
    (decode map m (mkCommand op x)).mnemonic = (decode map m (mkCommand op 0)).mnemonic := by
  have sameRow : ∀ i, Reads map m op x i → ∃ j, Reads map m op 0 j ∧ i.mnemonic = j.mnemonic := by
    intro i h
    cases h with
    | stop h => exact ⟨_, .stop h, rfl⟩
    | nop h => exact ⟨_, .nop h, rfl⟩
    | reloadDcp h hm => exact ⟨_, .reloadDcp h hm, rfl⟩
    | reloadDcpInert h hm => exact ⟨_, .reloadDcpInert h hm, rfl⟩
    | reloadDcpStop h => exact ⟨_, .reloadDcpStop h, rfl⟩
    | reloadIca h hm => exact ⟨_, .reloadIca h hm, rfl⟩
    | reloadVsr h hm => exact ⟨_, .reloadVsr h hm, rfl⟩
    | reloadVsrStop h => exact ⟨_, .reloadVsrStop h, rfl⟩
    | interrupt h => exact ⟨_, .interrupt h, rfl⟩
    | displayParameters h => exact ⟨_, .displayParameters h, rfl⟩
    | register r hlo hdp h => exact ⟨_, .register r hlo hdp h, by cases r <;> rfl⟩
    | unassigned hlo hdp h => exact ⟨_, .unassigned hlo hdp h, rfl⟩
  obtain ⟨j, hj, same⟩ := sameRow _ (reads_decode map m op x)
  rw [same, hj.decode_eq]

/-- Opcode byte by opcode byte, one row of the table covers it, under the mnemonic of the command read. -/
theorem table_covers_opcode (m : Mode) : ∀ op : Byte,
    (opcodeTable.filter fun r => r.covers m (mkCommand op 0)).map (fun r => r.mnemonic)
      = [(decode RegsetMap.default m (mkCommand op 0)).mnemonic] := by
  cases m <;> decide +kernel

/-! ## What the mode changes (30 R116) -/

/-- Outside the opcode nibbles 2 and 4 the decoder does not look at the mode. -/
theorem decode_mode_eq (map : List (Byte × RegName)) (op : Byte) (x : Operand) (m m' : Mode)
    (h : ¬ (op.toNat / 16 = 2 ∨ op.toNat / 16 = 4)) : decode map m (mkCommand op x) = decode map m' (mkCommand op x) := by
  have sameRow : ∀ i, Reads map m op x i → Reads map m' op x i := by
    intro i hi
    cases hi with
    | stop h => exact .stop h
    | nop h => exact .nop h
    | reloadDcpStop h => exact .reloadDcpStop h
    | reloadVsrStop h => exact .reloadVsrStop h
    | interrupt h => exact .interrupt h
    | displayParameters h => exact .displayParameters h
    | register r hlo hdp h => exact .register r hlo hdp h
    | unassigned hlo hdp h => exact .unassigned hlo hdp h
    | reloadDcp h2 | reloadDcpInert h2 => exact absurd (.inl h2) h
    | reloadIca h4 | reloadVsr h4 => exact absurd (.inr h4) h
  exact (sameRow _ (reads_decode map m op x)).decode_eq.symm

/-- A word decodes differently in the two modes exactly under opcode nibbles 2 and 4. -/
theorem decode_mode_ne_iff (map : List (Byte × RegName)) (w : Command) :
    decode map .ica w ≠ decode map .dca w ↔ (cmdOpcode w).toNat / 16 = 2 ∨ (cmdOpcode w).toNat / 16 = 4 := by
  rw [← mkCommand_fields w, cmdOpcode_mkCommand]
  refine ⟨fun hne => ?_, fun h => ?_⟩
  · by_contra h
    exact hne (decode_mode_eq map _ _ _ _ h)
  · obtain h | h := h
    · rw [(Reads.reloadDcp h rfl).decode_eq, (Reads.reloadDcpInert h rfl).decode_eq]
      exact Instr.noConfusion
    · rw [(Reads.reloadIca h rfl).decode_eq, (Reads.reloadVsr h rfl).decode_eq]
      exact Instr.noConfusion

/-! ## The obligations -/

/-- Settles O1, format by format; the register-set commands by their register's number. -/
theorem decodeOfEncodeIsTheCommand : Obligations.DecodeOfEncodeIsTheCommand := by
  intro m i hwf hvalid
  cases i
  case stop | nop | interrupt => simp [encode, decode]
  case reloadDcpStop addr | reloadVsrStop addr => simp [encode, decode]
  case reloadDcp addr | reloadDcpInert | reloadIca addr | reloadVsr addr =>
    obtain rfl := eq_of_beq hvalid
    simp [encode, decode]
  case regsetUnassigned reg =>
    obtain ⟨hlo, hdp⟩ := unassignedOpcode_range reg hwf
    exact (Reads.unassigned hlo hdp ((lookup_default_eq_none_iff reg hlo hdp).mpr hwf)).decode_eq
  case reloadDisplayParameters cm dp =>
    have row : Reads RegsetMap.default m 0x78 ((BitVec.ofBool cm ++ dp).setWidth 24) _ := .displayParameters (by decide)
    exact row.decode_eq.trans (congrArg₂ Instr.reloadDisplayParameters (colorMode_of_fields cm dp) (nibble_of_fields cm dp))
  case setClutBank bank =>
    exact (decode_number m .clutBank _).trans (congrArg Instr.setClutBank (extractLsb'_setWidth_of_le bank (by decide)))
  case setCurpat index word =>
    exact (decode_number m .curpat _).trans
      (congrArg₂ Instr.setCurpat (index_of_fields index word) (word_of_fields index word))
  case setClut slot value => exact decode_number m (.clut slot) value
  case setRc n value => exact decode_number m (.rc n) value
  all_goals exact decode_number m _ _

/-- Settles O2, row by row of the decoder. -/
theorem decodedCommandsAreWellFormed : Obligations.DecodedCommandsAreWellFormed := by
  intro m w
  rw [← mkCommand_fields w]
  exact (reads_decode RegsetMap.default m (cmdOpcode w) (cmdOperand w)).wellFormed

/-- Settles O3: the canonical word of the row that reads `v`, and that row read `w` too. -/
theorem onlySignificantBitsMatter : Obligations.OnlySignificantBitsMatter := by
  intro m v w
  rw [← mkCommand_fields v, ← mkCommand_fields w]
  have row := reads_decode RegsetMap.default m (cmdOpcode v) (cmdOperand v)
  refine ⟨row.encode_eq, fun agree => ?_⟩
  obtain ⟨hop, hfield⟩ := fields_of_and_significantMask agree
  exact (row.of_agree hop hfield).decode_eq

/-- Settles O4: row and mnemonic depend on the opcode byte alone, and its 256 values are looked through. -/
theorem opcodeTableRowsPartitionTheWords : Obligations.OpcodeTableRowsPartitionTheWords := by
  intro m w
  rw [← mkCommand_fields w, mnemonic_decode_mkCommand, ← table_covers_opcode]
  exact congrArg _ (List.filter_congr fun r hr => covers_mkCommand hr m _ _)

/-- Settles O7, word by word. -/
theorem writtenOutWordsDecode : Obligations.WrittenOutWordsDecode := by
  unfold Obligations.WrittenOutWordsDecode
  decide

end Sys2Proof
end

section
/-!
SUPPORT. 20, 42 to 45: a command placed in memory (R86), the split address registers (R200 to R204), and what each command writes and
what it leaves alone (R211, R217, R240, R250).
-/
namespace Sys2Proof.Machine

/-! ## A command placed in memory (20 R83, R86) -/

@[simp] theorem storeByte_chan (s : State) (c : Channel) (a : Nat) (b : Byte) : (storeByte s c a b).chan = s.chan := rfl

@[simp] theorem storeByte_walk (s : State) (c : Channel) (a : Nat) (b : Byte) : (storeByte s c a b).walk = s.walk := rfl

@[simp] theorem storeByte_config (s : State) (c : Channel) (a : Nat) (b : Byte) : (storeByte s c a b).config = s.config := rfl

@[simp] theorem placeCommand_chan (s : State) (w : Command) : (placeCommand s w).chan = s.chan := rfl

@[simp] theorem placeCommand_walk (s : State) (w : Command) : (placeCommand s w).walk = s.walk := rfl

/-- A byte of the planes after a command was placed at `ip`: one of its four, or the byte that was there. -/
theorem planeByte_placeCommand (s : State) (w : Command) (c : Channel) (a draw : Nat) :
    planeByte (placeCommand s w) c a draw
      = if c = s.chan ∧ a = 2 * s.walk.ip + 3 ∧ a < s.config.planeBytes then commandByte w 3
        else if c = s.chan ∧ a = 2 * s.walk.ip + 2 ∧ a < s.config.planeBytes then commandByte w 2
        else if c = s.chan ∧ a = 2 * s.walk.ip + 1 ∧ a < s.config.planeBytes then commandByte w 1
        else if c = s.chan ∧ a = 2 * s.walk.ip ∧ a < s.config.planeBytes then commandByte w 0
        else planeByte s c a draw := by
  simp only [placeCommand, planeByte_storeByte, storeByte_config]

theorem fetchCommand_placeCommand (s : State) (w : Command) (h : 2 * s.walk.ip + 3 < s.config.planeBytes) :
    fetchCommand (placeCommand s w) = w := by
  have h0 : 2 * s.walk.ip < s.config.planeBytes := by omega
  have h1 : 2 * s.walk.ip + 1 < s.config.planeBytes := by omega
  have h2 : 2 * s.walk.ip + 2 < s.config.planeBytes := by omega
  simp only [fetchCommand, planeWord, placeCommand_chan, placeCommand_walk, Nat.mul_add, Nat.mul_one, Nat.add_assoc,
    planeByte_placeCommand]
  simpa [h0, h1, h2, h] using command_bytes w

/-! ## Split address registers (42 R200 to R204) -/

theorem toNat_addr (hi : BitVec 6) (lo : Half) : (hi ++ lo : Addr22).toNat = hi.toNat * 2 ^ 16 + lo.toNat := by
  rw [BitVec.toNat_append, ← Nat.shiftLeft_add_eq_or_of_lt lo.isLt, Nat.shiftLeft_eq]

theorem toNat_getVsr (d : DisplayChannel) (l : DisplayBits) :
    (d.getVsr l).toNat = (d.dcr.toNat / 2 ^ l.vsrHigh.val % 64) * 2 ^ 16 + d.vsr.toNat := by
  rw [DisplayChannel.getVsr, toNat_addr, BitVec.extractLsb'_toNat, Nat.shiftRight_eq_div_pow]

theorem toNat_getDcp (d : DisplayChannel) (l : DisplayBits) :
    (d.getDcp l).toNat = (d.ddr.toNat / 2 ^ l.dcpHigh.val % 64) * 2 ^ 16 + d.dcp.toNat := by
  rw [DisplayChannel.getDcp, toNat_addr, BitVec.extractLsb'_toNat, Nat.shiftRight_eq_div_pow]

/-- The high field and the low word of an address make its low 22 bits (R204). -/
theorem toNat_split (a : Nat) : (BitVec.ofNat 6 (a / 0x10000) ++ BitVec.ofNat 16 a : Addr22).toNat = a % 2 ^ 22 := by
  rw [toNat_addr, BitVec.toNat_ofNat, BitVec.toNat_ofNat]
  omega

theorem setVsr_highField (d : DisplayChannel) (l : DisplayBits) (a : Nat) :
    (d.setVsr l a).dcr.extractLsb' l.vsrHigh.val 6 = BitVec.ofNat 6 (a / 0x10000) :=
  extract_putField_same _ _ _ (by omega)

theorem setDcp_highField (d : DisplayChannel) (l : DisplayBits) (a : Nat) :
    (d.setDcp l a).ddr.extractLsb' l.dcpHigh.val 6 = BitVec.ofNat 6 (a / 0x10000) :=
  extract_putField_same _ _ _ (by omega)

theorem toNat_getVsr_setVsr (d : DisplayChannel) (l : DisplayBits) (a : Nat) :
    ((d.setVsr l a).getVsr l).toNat = a % 2 ^ 22 := by
  rw [DisplayChannel.getVsr, setVsr_highField]
  exact toNat_split a

theorem toNat_getDcp_setDcp (d : DisplayChannel) (l : DisplayBits) (a : Nat) :
    ((d.setDcp l a).getDcp l).toNat = a % 2 ^ 22 := by
  rw [DisplayChannel.getDcp, setDcp_highField]
  exact toNat_split a

@[simp] theorem display_setVsr (s : State) (c : Channel) (a : Nat) :
    (setVsr s c a).display c = (s.display c).setVsr s.config.bits a :=
  display_setDisplay_same s c _

@[simp] theorem display_setDcp (s : State) (c : Channel) (a : Nat) :
    (setDcp s c a).display c = (s.display c).setDcp s.config.bits a :=
  display_setDisplay_same s c _

theorem addr21_mod (addr : Addr21) : addr.toNat % 2 ^ 22 = addr.toNat := by
  have := addr.isLt
  omega

/-! ## Frames (43 R217) -/

/-- A state with other display registers, lines, walker's registers and log differs in nothing a command must not touch. -/
theorem outsideCommands_update (s : State) (a b : DisplayChannel) (r : DisplayRegs) (q : Vector IrqPort 7) (w : Walker)
    (l : List LogEvent) :
    outsideCommands s { s with chA := a, chB := b, regs := r, irq := q, walk := w, log := l } :=
  ⟨rfl, rfl, rfl, rfl, rfl, rfl, rfl, rfl, rfl, rfl, rfl, rfl, rfl, planeByte_congr s _ rfl rfl rfl rfl⟩

/-- No command touches what 43 R217 forbids. -/
theorem exec_outsideCommands {i : Instr} {s t : State} (h : exec i s = .next t) : outsideCommands s t := by
  rw [exec_frame i s t h]
  exact outsideCommands_update s _ _ _ _ _ _

/-- Writing one channel's registers and the walker's is `onlyChannel` of that channel. -/
theorem onlyChannel_setDisplay (s : State) (c : Channel) (d : DisplayChannel) (w : Walker) :
    onlyChannel c s { s.setDisplay c d with walk := w } := by
  refine ⟨outsideCommands_update s _ _ _ _ _ _, fun e he => ?_, rfl, rfl, rfl⟩
  calc ({ s.setDisplay c d with walk := w } : State).display e = (s.setDisplay c d).display e := by cases e <;> rfl
    _ = s.display e := display_setDisplay_other s c e d he

/-- The channel's registers do not depend on the walker's. -/
theorem display_with_walk (s : State) (w : Walker) (c : Channel) : ({ s with walk := w } : State).display c = s.display c := by
  cases c <;> rfl

/-- All that loading DCP does, whatever the walker's registers become (R203, R204). -/
theorem setDcp_effect (s : State) (c : Channel) (a : Nat) (w : Walker) :
    let t : State := { setDcp s c a with walk := w }
    onlyChannel c s t ∧ (getDcp t c).toNat = a % 2 ^ 22
    ∧ t.display c = { s.display c with dcp := (t.display c).dcp, ddr := (t.display c).ddr }
    ∧ ∀ i, i < 16 → inField s.config.bits.dcpHigh.val 6 i = false →
      (t.display c).ddr.getLsbD i = (s.display c).ddr.getLsbD i := by
  intro t
  have ht : t.display c = (s.display c).setDcp s.config.bits a :=
    (display_with_walk (setDcp s c a) w c).trans (display_setDcp s c a)
  obtain ⟨hframe, hbits⟩ := setDcp_frame (s.display c) s.config.bits a
  refine ⟨onlyChannel_setDisplay s c _ w, ?_, ?_, ?_⟩
  · rw [getDcp, ht]
    exact toNat_getDcp_setDcp _ _ a
  · rw [ht]
    exact hframe
  · rw [ht]
    exact hbits

/-- All that loading VSR does, whatever the walker's registers become (R201, R204). -/
theorem setVsr_effect (s : State) (c : Channel) (a : Nat) (w : Walker) :
    let t : State := { setVsr s c a with walk := w }
    onlyChannel c s t ∧ (getVsr t c).toNat = a % 2 ^ 22
    ∧ t.display c = { s.display c with vsr := (t.display c).vsr, dcr := (t.display c).dcr }
    ∧ ∀ i, i < 16 → inField s.config.bits.vsrHigh.val 6 i = false →
      (t.display c).dcr.getLsbD i = (s.display c).dcr.getLsbD i := by
  intro t
  have ht : t.display c = (s.display c).setVsr s.config.bits a :=
    (display_with_walk (setVsr s c a) w c).trans (display_setVsr s c a)
  obtain ⟨hframe, hbits⟩ := setVsr_frame (s.display c) s.config.bits a
  refine ⟨onlyChannel_setDisplay s c _ w, ?_, ?_, ?_⟩
  · rw [getVsr, ht]
    exact toNat_getVsr_setVsr _ _ a
  · rw [ht]
    exact hframe
  · rw [ht]
    exact hbits

/-- All that a write of the issuing channel's own copy does (45 R250). -/
theorem writeOwn_effect (s : State) (f : DisplayChannel → DisplayChannel) :
    onlyChannel s.chan s (writeOwn s f) ∧ (writeOwn s f).display s.chan = f (s.display s.chan) :=
  ⟨onlyChannel_setDisplay s s.chan _ s.walk, display_setDisplay_same s s.chan _⟩

/-- All that a gated write does: the owner's stream writes, the other channel's changes nothing (45 R250). -/
theorem writeOwned_effect (s : State) (o : Channel) (f : DisplayRegs → DisplayRegs) :
    onlyRegs s (writeOwned s o f) ∧ (writeOwned s o f).regs = if s.chan = o then f s.regs else s.regs := by
  obtain ⟨h, e⟩ | ⟨h, e⟩ := writeOwned_cases s o f <;> rw [e]
  · exact ⟨⟨outsideCommands_update s _ _ _ _ _ _, rfl, rfl, rfl, rfl, rfl⟩, by simp [h]⟩
  · exact ⟨⟨outsideCommands_update s _ _ _ _ _ _, rfl, rfl, rfl, rfl, rfl⟩, by simp [h]⟩

/-! ## INTERRUPT (44 R240) -/

/-- The interrupt bit is set, whatever the status was: the line is always asserted (R241). -/
theorem interruptBit_set (c : Channel) : ∀ b : Byte, ((b ||| interruptBit c) &&& interruptBits != 0) = true := by
  cases c <;> decide

/-- It is one of bits 2 and 1. -/
theorem interruptBit_inside (c : Channel) : ∀ b : Byte, (b ||| interruptBit c) &&& 0xF9 = b &&& 0xF9 := by
  cases c <;> decide

theorem raiseInterrupt_eq (s : State) :
    raiseInterrupt s
      = assertSelected (setInterruptBit s s.chan) (lirSelector s.periph.lir s.chan) (vectorBase s.walk.mode) :=
  if_pos (interruptBit_set s.chan s.chB.csrr)

/-- A line after INTERRUPT. -/
theorem raiseInterrupt_port (s : State) (n : IrqLine) :
    (raiseInterrupt s).irq[n]
      = if n.number = (lirSelector s.periph.lir s.chan).toNat
        then ⟨true, BitVec.ofNat 8 (vectorBase s.walk.mode + n.number)⟩ else s.irq[n] := by
  rw [raiseInterrupt_eq, assertSelected_port]
  rfl

/-- Channel 1's registers after INTERRUPT: the status bit, and nothing else. -/
theorem raiseInterrupt_chB (s : State) :
    (raiseInterrupt s).chB = { s.chB with csrr := s.chB.csrr ||| interruptBit s.chan } := by
  rw [raiseInterrupt_eq, assertSelected_frame]
  rfl

/-- The vectors of R240 fit into a byte. -/
theorem vector_toNat (m : Mode) (n : IrqLine) : (BitVec.ofNat 8 (vectorBase m + n.number)).toNat = vectorBase m + n.number := by
  have hn := n.isLt
  cases m <;> simp only [vectorBase, Config.vecOnchipBase, Config.vecAutoBase, IrqLine.number, BitVec.toNat_ofNat] <;> omega

/-- The entry a slot selects is counted in banks of 64 (R252). -/
theorem toNat_clutIndex (d : DisplayChannel) (slot : BitVec 6) :
    (d.clutIndex slot).toNat = d.clutBank.toNat * 64 + slot.toNat := by
  rw [DisplayChannel.clutIndex, BitVec.toNat_append, ← Nat.shiftLeft_add_eq_or_of_lt slot.isLt, Nat.shiftLeft_eq]

/-! ## What a command does to the registers of the channels (43 R217, 45 R250) -/

/-- What command `i` can make of the registers `d` of its own channel. -/
structure OwnUpdate (i : Instr) (d e : DisplayChannel) : Prop where
  status : e.csrr = d.csrr
  control : e.csrw = d.csrw
  clut : e.clut = d.clut
    ∨ ∃ (slot : BitVec 6) (value : Operand), e.clut = Memory.put d.clut (d.clutIndex slot).toNat (value.setWidth 32)
  registerSet : isRegisterSet i = false → e.clut = d.clut ∧ e.clutBank = d.clutBank ∧ e.rc = d.rc

theorem OwnUpdate.refl (i : Instr) (d : DisplayChannel) : OwnUpdate i d d :=
  ⟨rfl, rfl, .inl rfl, fun _ => ⟨rfl, rfl, rfl⟩⟩

/-- Command `i` took `s` to `t`, writing its own channel's registers and, as a REGISTER SET command, the single ones. -/
structure OwnEffect (i : Instr) (s t : State) : Prop where
  lines : t.irq = s.irq
  single : isRegisterSet i = false → t.regs = s.regs
  own : OwnUpdate i (s.display s.chan) (t.display s.chan)
  other : ∀ c, c ≠ s.chan → t.display c = s.display c

theorem OwnEffect.of_setDisplay {i : Instr} {s t : State} (e : DisplayChannel) (he : OwnUpdate i (s.display s.chan) e)
    (ht : t = { s.setDisplay s.chan e with walk := t.walk }) : OwnEffect i s t := by
  have display (c : Channel) : t.display c = (s.setDisplay s.chan e).display c := by
    rw [ht]
    exact display_with_walk _ _ c
  refine ⟨by rw [ht]; rfl, fun _ => by rw [ht]; rfl, ?_, fun c hc => ?_⟩
  · rwa [display, display_setDisplay_same]
  · rw [display, display_setDisplay_other s _ c e hc]

theorem OwnEffect.of_same {i : Instr} {s t : State} (hA : t.chA = s.chA) (hB : t.chB = s.chB) (hirq : t.irq = s.irq)
    (hregs : isRegisterSet i = false → t.regs = s.regs) : OwnEffect i s t := by
  have same (c : Channel) : t.display c = s.display c := by
    cases c
    · exact hA
    · exact hB
  exact ⟨hirq, hregs, by rw [same]; exact .refl i _, fun c _ => same c⟩

theorem OwnEffect.of_writeOwned {i : Instr} (hi : isRegisterSet i = true) (s : State) (o : Channel)
    (f : DisplayRegs → DisplayRegs) : OwnEffect i s (writeOwned s o f) := by
  obtain ⟨⟨-, hA, hB, hirq, -, -⟩, -⟩ := writeOwned_effect s o f
  exact .of_same hA hB hirq (by simp [hi])

/-- No command but INTERRUPT writes a status or control register. -/
theorem OwnEffect.status {i : Instr} {s t : State} (h : OwnEffect i s t) (c : Channel) :
    (t.display c).csrr = (s.display c).csrr ∧ (t.display c).csrw = (s.display c).csrw := by
  by_cases hc : c = s.chan
  · rw [hc]
    exact ⟨h.own.status, h.own.control⟩
  · rw [h.other c hc]
    exact ⟨rfl, rfl⟩

/-- A command's effect on the display registers and the lines: INTERRUPT's, or an update of its own channel's registers and, for
a REGISTER SET command, of the single ones. -/
theorem exec_cases {i : Instr} {s t : State} (h : exec i s = .next t) :
    (i = .interrupt ∧ t = raiseInterrupt s) ∨ OwnEffect i s t := by
  cases i
  case interrupt =>
    cases h
    exact .inl ⟨rfl, rfl⟩
  case stop | nop | reloadDcpInert | reloadIca | regsetUnassigned =>
    cases h
    exact .inr (.of_same rfl rfl rfl fun _ => rfl)
  case reloadDcp addr | reloadDcpStop addr =>
    cases h
    exact .inr (.of_setDisplay ((s.display s.chan).setDcp s.config.bits addr.toNat)
      ⟨rfl, rfl, .inl rfl, fun _ => ⟨rfl, rfl, rfl⟩⟩ rfl)
  case reloadVsr addr | reloadVsrStop addr =>
    cases h
    exact .inr (.of_setDisplay ((s.display s.chan).setVsr s.config.bits addr.toNat)
      ⟨rfl, rfl, .inl rfl, fun _ => ⟨rfl, rfl, rfl⟩⟩ rfl)
  case reloadDisplayParameters cm dp =>
    cases h
    exact .inr (.of_setDisplay ((s.display s.chan).setParameters s.config.bits cm dp)
      ⟨rfl, rfl, .inl rfl, fun _ => ⟨rfl, rfl, rfl⟩⟩ rfl)
  case setClut slot value =>
    cases h
    exact .inr (.of_setDisplay { s.display s.chan with
        clut := Memory.put (s.display s.chan).clut ((s.display s.chan).clutIndex slot).toNat (value.setWidth 32) }
      ⟨rfl, rfl, .inr ⟨slot, value, rfl⟩, by simp [isRegisterSet]⟩ rfl)
  case setClutBank bank =>
    cases h
    exact .inr (.of_setDisplay { s.display s.chan with clutBank := bank }
      ⟨rfl, rfl, .inl rfl, by simp [isRegisterSet]⟩ rfl)
  case setRc n value =>
    cases h
    exact .inr (.of_setDisplay { s.display s.chan with rc := (s.display s.chan).rc.set n.toNat value n.isLt }
      ⟨rfl, rfl, .inl rfl, by simp [isRegisterSet]⟩ rfl)
  all_goals
    cases h
    exact .inr (.of_writeOwned rfl s _ _)

/-! ## What a command does to the walker's registers (43 R211) -/

/-- Only RELOAD_ICA moves `ip`. -/
theorem exec_ip {i : Instr} {s t : State} (h : exec i s = .next t) :
    i.mnemonic = "RELOAD_ICA" ∨ t.walk.ip = s.walk.ip := by
  cases i
  case reloadIca => exact .inl rfl
  all_goals
    cases h
    simp

/-! ## The mode (44 R240) -/

/-- The state with another mode of its walk. -/
def withMode (s : State) (m : Mode) : State := { s with walk := { s.walk with mode := m } }

theorem writeOwned_withMode (s : State) (m : Mode) (o : Channel) (f : DisplayRegs → DisplayRegs) :
    writeOwned (withMode s m) o f = withMode (writeOwned s o f) m := by
  obtain ⟨h, e⟩ | ⟨h, e⟩ := writeOwned_cases s o f <;> rw [e]
  · exact if_pos h
  · exact if_neg h

/-- But for INTERRUPT, a command does the same in either mode. -/
theorem exec_withMode {i : Instr} (hi : i ≠ .interrupt) {s t : State} (m : Mode) (h : exec i s = .next t) :
    exec i (withMode s m) = .next (withMode t m) := by
  cases i
  case interrupt => exact absurd rfl hi
  case stop | nop | reloadDcp | reloadDcpInert | reloadDcpStop | reloadIca | reloadVsr | reloadVsrStop | regsetUnassigned
      | reloadDisplayParameters | setClut | setClutBank | setRc =>
    cases h
    rfl
  all_goals
    cases h
    exact congrArg Host.Outcome.next (writeOwned_withMode s m _ _)

end Sys2Proof.Machine

namespace Sys2Proof

open Machine

/-! ## The obligations -/

/-- Settles O6: the nibbles by decode; the other commands do not look at the mode; INTERRUPT line by line. -/
theorem modeChangesTwoNibblesAndInterrupt : Obligations.ModeChangesTwoNibblesAndInterrupt := by
  refine ⟨decode_mode_ne_iff, fun i s t u hi ht hu => ?otherCommands, fun s t u ht hu => ?interrupt⟩
  case otherCommands =>
    have h := exec_withMode hi .dca ht
    exact Host.Outcome.next.inj (hu.symm.trans h)
  case interrupt =>
    have port (m : Mode) (n : IrqLine) : (raiseInterrupt (withMode s m)).irq[n]
        = if n.number = (lirSelector s.periph.lir s.chan).toNat then ⟨true, BitVec.ofNat 8 (vectorBase m + n.number)⟩
          else s.irq[n] := raiseInterrupt_port _ n
    obtain rfl : raiseInterrupt (withMode s .ica) = t := Host.Outcome.next.inj ht
    obtain rfl : raiseInterrupt (withMode s .dca) = u := Host.Outcome.next.inj hu
    refine ⟨?frame, fun n hn => ?vector, fun n => ?level, fun n hn => ?otherLine⟩
    case frame =>
      rw [raiseInterrupt_frame (withMode s .dca), raiseInterrupt_frame (withMode s .ica), raiseInterrupt_chB,
        raiseInterrupt_chB]
      rfl
    case vector =>
      rw [port, port, if_pos hn, if_pos hn]
      exact ⟨vector_toNat .ica n, vector_toNat .dca n⟩
    case level =>
      rw [port, port]
      split <;> rfl
    case otherLine => rw [port, port, if_neg hn, if_neg hn]

/-- Settles O10, byte by byte. -/
theorem placedCommandIsFetched : Obligations.PlacedCommandIsFetched := by
  intro s w h
  refine ⟨fetchCommand_placeCommand s w h, fun c a draw hother => ?_⟩
  have outside (k : Nat) (hk : k ≤ 3) : ¬ (c = s.chan ∧ a = 2 * s.walk.ip + k ∧ a < s.config.planeBytes) := by
    rintro ⟨hc, ha, -⟩
    obtain h | h | h := hother
    · exact h hc
    · omega
    · omega
  have outside0 : ¬ (c = s.chan ∧ a = 2 * s.walk.ip ∧ a < s.config.planeBytes) := outside 0 (by decide)
  rw [planeByte_placeCommand, if_neg (outside 3 (by decide)), if_neg (outside 2 (by decide)),
    if_neg (outside 1 (by decide)), if_neg outside0]

/-- Settles O13, both commands by what loading DCP does. -/
theorem reloadDcpLoadsTheAddress : Obligations.ReloadDcpLoadsTheAddress := by
  intro s addr
  have loads := setDcp_effect s s.chan addr.toNat
  simp only [addr21_mod] at loads
  obtain ⟨hc, ha, hd, hb⟩ := loads s.walk
  obtain ⟨hc', ha', hd', hb'⟩ := loads { s.walk with stop := true, dcpReloaded := true }
  exact ⟨⟨_, rfl, hc, rfl, ha, hd, hb⟩, ⟨_, rfl, hc', rfl, ha', hd', hb'⟩⟩

/-- Settles O14: the jump is a write of the walker's registers. -/
theorem reloadIcaJumps : Obligations.ReloadIcaJumps :=
  fun s addr => ⟨setIp s (addr.toNat / 2), rfl, onlyWalkAndLog_update s _ s.log, rfl, rfl⟩

/-- Settles O15, both commands by what loading VSR does. -/
theorem reloadVsrLoadsTheAddress : Obligations.ReloadVsrLoadsTheAddress := by
  intro s addr
  have loads := setVsr_effect s s.chan addr.toNat
  simp only [addr21_mod] at loads
  obtain ⟨hc, ha, hd, hb⟩ := loads s.walk
  obtain ⟨hc', ha', hd', hb'⟩ := loads { s.walk with stop := true }
  exact ⟨⟨_, rfl, hc, rfl, ha, hd, hb⟩, ⟨_, rfl, hc', rfl, ha', hd', hb'⟩⟩

/-- Settles O16: the frame of INTERRUPT, its status bit, and its lines port by port. -/
theorem interruptSetsStatusAndAssertsItsLine : Obligations.InterruptSetsStatusAndAssertsItsLine := by
  intro s
  have frame := raiseInterrupt_frame s
  refine ⟨raiseInterrupt s, rfl, exec_outsideCommands (i := .interrupt) rfl, ?_, ?_, raiseInterrupt_walk s, ?_, ?_, ?_⟩
  · rw [frame]
  · rw [frame]
  · rw [frame]
  · rw [raiseInterrupt_chB]
    cases s.chan <;> rfl
  · intro n
    have port := raiseInterrupt_port s n
    show if n.number = (lirSelector s.periph.lir s.chan).toNat
      then (raiseInterrupt s).irq[n] = ⟨true, BitVec.ofNat 8 (vectorBase s.walk.mode + n.number)⟩
      else (raiseInterrupt s).irq[n] = s.irq[n]
    split
    next h => rw [port, if_pos h]
    next h => rw [port, if_neg h]

/-- Settles O17: what writing the two fields reads back, and the bits outside them. -/
theorem displayParametersSetFiveBits : Obligations.DisplayParametersSetFiveBits := by
  refine ⟨fun s cm dp => ?_, rfl, rfl⟩
  obtain ⟨hown, hd⟩ := writeOwn_effect s fun d => d.setParameters s.config.bits cm dp
  refine ⟨_, rfl, hown, rfl, ?_⟩
  rw [hd]
  refine ⟨rfl, extract_putField_same _ _ _ (by omega), fun i hi hfield => ?otherDdr, ?colourMode, fun i hi hne => ?otherDcr⟩
  case otherDdr => exact getLsbD_putField_other _ _ _ i hi (not_inField _ _ i hfield)
  case colourMode => exact (getLsbD_putField _ _ _ _ (Fin.isLt _)).trans (by simp)
  case otherDcr => exact getLsbD_putField_other _ _ _ i hi (by omega)

/-- Settles O18: one write of the channel's CLUT, at the entry its bank and the slot number. -/
theorem setClutWritesOneEntry : Obligations.SetClutWritesOneEntry := by
  intro s slot value
  obtain ⟨hown, hd⟩ := writeOwn_effect s fun d =>
    { d with clut := Memory.put d.clut (d.clutIndex slot).toNat (value.setWidth 32) }
  refine ⟨_, rfl, hown, rfl, by rw [hd], fun c k => ?_⟩
  have entry : k = (s.display s.chan).clutIndex slot
      ↔ k.toNat = (s.display s.chan).clutBank.toNat * 64 + slot.toNat := by
    rw [← toNat_clutIndex]
    exact BitVec.toNat_inj.symm
  have write := clutEntry_write s s.chan c ((s.display s.chan).clutIndex slot) k (value.setWidth 32)
  rw [BitVec.ofNat_toNat]
  simp only [entry] at write
  exact write

/-- Settles O19: two writes of the issuing channel's own copy. -/
theorem setClutBankAndRegionControlAreOwn : Obligations.SetClutBankAndRegionControlAreOwn := by
  refine ⟨fun s bank => ?bank, fun s n value => ?region⟩
  case bank =>
    obtain ⟨hown, hd⟩ := writeOwn_effect s fun d => { d with clutBank := bank }
    exact ⟨_, rfl, hown, rfl, hd⟩
  case region =>
    obtain ⟨hown, hd⟩ := writeOwn_effect s fun d => { d with rc := d.rc.set n.toNat value n.isLt }
    refine ⟨_, rfl, hown, rfl, by rw [hd], fun k => ?_⟩
    rw [hd]
    simp only [Fin.getElem_fin, Vector.getElem_set, eq_comm]

/-- Settles O20: six gated writes. -/
theorem channel0OwnedRegistersAreGated : Obligations.Channel0OwnedRegistersAreGated := by
  intro s
  have gated (f : DisplayRegs → DisplayRegs) := writeOwned_effect s .a f
  refine ⟨fun v => ⟨_, rfl, gated _⟩, fun v => ⟨_, rfl, gated _⟩, fun v => ⟨_, rfl, gated _⟩, fun v => ⟨_, rfl, gated _⟩,
    fun v => ⟨_, rfl, gated _⟩, fun index word => ?pattern⟩
  case pattern =>
    obtain ⟨honly, hregs⟩ := gated fun r => { r with curpat := r.curpat.set index.toNat word index.isLt }
    refine ⟨_, rfl, honly, ?_⟩
    rw [hregs]
    by_cases h : s.chan = .a
    · simp [h, Vector.getElem_set, eq_comm]
    · simp [h]

/-- Settles O21: eleven gated writes. -/
theorem colourAndWeightRegistersAreGated : Obligations.ColourAndWeightRegistersAreGated := by
  intro s v
  have gated (o : Channel) (f : DisplayRegs → DisplayRegs) := writeOwned_effect s o f
  exact ⟨⟨_, rfl, gated _ _⟩, ⟨_, rfl, gated _ _⟩, ⟨_, rfl, gated _ _⟩, ⟨_, rfl, gated _ _⟩, ⟨_, rfl, gated _ _⟩,
    ⟨_, rfl, gated _ _⟩, ⟨_, rfl, gated _ _⟩, ⟨_, rfl, gated _ _⟩, ⟨_, rfl, gated _ _⟩, ⟨_, rfl, gated _ _⟩,
    ⟨_, rfl, gated _ _⟩⟩

/-- Settles O22: the row of the decoder, and a command that only logs. -/
theorem unassignedRegisterNumbersAreDropped : Obligations.UnassignedRegisterNumbersAreDropped := by
  refine ⟨fun m w => ?_, fun s reg => ⟨logEvent s .unknownRegister, rfl, onlyWalkAndLog_update s s.walk _, rfl, rfl⟩⟩
  conv_lhs => rw [← mkCommand_fields w]
  exact (reads_decode RegsetMap.default m _ _).unassigned_iff

/-- Settles O23: the walker's registers after a command, and the one command that jumps. -/
theorem onlyThreeCommandsHalt : Obligations.OnlyThreeCommandsHalt := by
  intro i s t hstop h
  have hwalk := exec_walk h
  refine ⟨?_, fun hip => (exec_ip h).resolve_right hip, ?_, ?_, ?_, ?_, ?_⟩
  · rw [← Instr.halts_iff_mnemonic, hwalk, hstop, Bool.false_or]
  all_goals rw [hwalk]

/-- Settles O24: the frame of all commands, INTERRUPT's status bit, and the own effect of the others. -/
theorem commandsStayInsideTheirChannel : Obligations.CommandsStayInsideTheirChannel := by
  intro i s t h
  refine ⟨exec_outsideCommands h, ?_⟩
  obtain ⟨rfl, rfl⟩ | effect := exec_cases h
  · refine ⟨fun c _ => ?_, fun c => ?_, ?_, ?_, fun _ => rfl, fun _ => rfl⟩
    · cases c
      · rw [raiseInterrupt_frame]; rfl
      · simp only [display_b, raiseInterrupt_chB]
    · cases c
      · rw [raiseInterrupt_frame]; rfl
      · simp only [display_b, raiseInterrupt_chB]
    · rw [raiseInterrupt_frame]
    · rw [raiseInterrupt_chB]
      exact interruptBit_inside s.chan s.chB.csrr
  · refine ⟨fun c hc => ?_, fun c => (effect.status c).2, (effect.status .a).1, ?_, fun hirq => absurd effect.lines hirq,
      fun hcsrr => absurd (effect.status .b).1 hcsrr⟩
    · rw [effect.other c hc]
    · exact congrArg (· &&& 0xF9) (effect.status .b).1

/-- Settles O41, register by register. -/
theorem splitAddressRegistersAreWrittenByField : Obligations.SplitAddressRegistersAreWrittenByField := by
  refine ⟨fun s c a => ?_, rfl, rfl⟩
  refine ⟨?_, ?_, toNat_getVsr _ _, toNat_getDcp _ _⟩
  · refine ⟨?_, ?_, ?_⟩
    · simp only [display_setVsr]; rfl
    · simp only [display_setVsr]; exact setVsr_highField _ _ a
    · simp only [display_setVsr]; exact (setVsr_frame _ _ a).2
  · refine ⟨?_, ?_, ?_⟩
    · simp only [display_setDcp]; rfl
    · simp only [display_setDcp]; exact setDcp_highField _ _ a
    · simp only [display_setDcp]; exact (setDcp_frame _ _ a).2

/-- Settles O42: each register reads back the two fields it was split into. -/
theorem splitAddressRoundTrip : Obligations.SplitAddressRoundTrip := by
  intro s c a
  obtain ⟨-, hvsr, -, -⟩ := setVsr_effect s c a s.walk
  obtain ⟨-, hdcp, -, -⟩ := setDcp_effect s c a s.walk
  exact ⟨hvsr, hdcp⟩

end Sys2Proof
end

section
/-!
SUPPORT. 46 scanline renderer: the two decoders and the unimplemented modes (R291 to R300), what a line depends on (R299), and what
rendering a line leaves behind (R305, R306, 47 R325).
-/
namespace Sys2Proof.Machine

/-! ## 8-bit bitmap (46 R292) -/

theorem length_bitmapPixels (rd : Nat → Byte) (lut : Byte → Pixel) (i n : Nat) :
    (bitmapPixels rd lut i n).length = 2 * n := by
  induction n generalizing i with
  | zero => rfl
  | succ n ih =>
    simp only [bitmapPixels, List.length_cons, ih]
    omega

/-- Byte `k` of the line gives the pixels `2k` and `2k + 1`. -/
theorem getElem?_bitmapPixels (rd : Nat → Byte) (lut : Byte → Pixel) (i n k : Nat) (hk : k < n) :
    (bitmapPixels rd lut i n)[2 * k]? = some (lut (rd (i + k)))
    ∧ (bitmapPixels rd lut i n)[2 * k + 1]? = some (lut (rd (i + k))) := by
  induction n generalizing i k with
  | zero => omega
  | succ n ih =>
    cases k with
    | zero => exact ⟨rfl, rfl⟩
    | succ k =>
      have rest := ih (i + 1) k (by omega)
      rw [show i + 1 + k = i + (k + 1) by omega] at rest
      exact rest

/-! ## 8-bit run-length (46 R293 to R296) -/

/-- A first byte below 0x80 is a literal, and its own index (R295). -/
theorem literal_byte : ∀ b : Byte, b.toNat < 128 → b.getLsbD 7 = false ∧ rleIndex b = b := by
  decide

/-- A first byte from 0x80 on starts a run of the index in its low seven bits (R295). -/
theorem run_byte : ∀ b : Byte, 128 ≤ b.toNat → b.getLsbD 7 = true ∧ rleIndex b = BitVec.ofNat 8 (b.toNat - 128) := by
  decide

theorem rleItem_literal (rd : Nat → Byte) (lut : Byte → Pixel) (i x : Nat) (h : (rd i).toNat < 128) :
    rleItem rd lut i x = ([lut (rd i), lut (rd i)], i + 1) := by
  obtain ⟨bit, index⟩ := literal_byte _ h
  simp only [rleItem, bit, index, Bool.false_eq_true, if_false]

theorem rleItem_fill (rd : Nat → Byte) (lut : Byte → Pixel) (i x : Nat) (h : 128 ≤ (rd i).toNat)
    (hlen : (rd (i + 1)).toNat = 0) :
    rleItem rd lut i x = (List.replicate (768 - x) (lut (BitVec.ofNat 8 ((rd i).toNat - 128))), i + 2) := by
  obtain ⟨bit, index⟩ := run_byte _ h
  simp only [rleItem, bit, index, hlen, if_true, Config.linePixels]

theorem rleItem_run (rd : Nat → Byte) (lut : Byte → Pixel) (i x : Nat) (h : 128 ≤ (rd i).toNat)
    (hlen : (rd (i + 1)).toNat ≠ 0) :
    rleItem rd lut i x
      = (List.replicate (min (2 * (rd (i + 1)).toNat) (768 - x)) (lut (BitVec.ofNat 8 ((rd i).toNat - 128))), i + 2) := by
  obtain ⟨bit, index⟩ := run_byte _ h
  simp only [rleItem, bit, index, hlen, if_true, if_false, Config.linePixels]

/-- At an even place of the line an item gives a positive even number of pixels that the line has room for, from one byte for a
single pair and else from two. -/
theorem rleItem_size (rd : Nat → Byte) (lut : Byte → Pixel) (i x : Nat) (hx : x < 768) (heven : x % 2 = 0) :
    2 ≤ (rleItem rd lut i x).1.length ∧ (rleItem rd lut i x).1.length % 2 = 0
    ∧ x + (rleItem rd lut i x).1.length ≤ 768
    ∧ ((rleItem rd lut i x).1.length = 2 ∧ (rleItem rd lut i x).2 = i + 1 ∨ (rleItem rd lut i x).2 = i + 2) := by
  by_cases hb : (rd i).toNat < 128
  · rw [rleItem_literal rd lut i x hb]
    exact ⟨le_refl 2, show 2 % 2 = 0 from rfl, show x + 2 ≤ 768 by omega, .inl ⟨rfl, rfl⟩⟩
  · by_cases hlen : (rd (i + 1)).toNat = 0
    · rw [rleItem_fill rd lut i x (by omega) hlen, List.length_replicate]
      exact ⟨by omega, by omega, by omega, .inr rfl⟩
    · rw [rleItem_run rd lut i x (by omega) hlen, List.length_replicate]
      exact ⟨by omega, by omega, by omega, .inr rfl⟩

/-- With fuel for all pixels still missing, the loop is the items of the spec one after another (R294). -/
theorem rlePixels_items (rd : Nat → Byte) (lut : Byte → Pixel) (fuel i x : Nat) (heven : x % 2 = 0) (hx : x ≤ 768)
    (hfuel : 768 - x ≤ 2 * fuel) :
    RunLengthItems rd lut i x (rlePixels rd lut fuel i x).1 (rlePixels rd lut fuel i x).2 := by
  induction fuel generalizing i x with
  | zero =>
    obtain rfl : x = 768 := by omega
    exact .full i
  | succ fuel ih =>
    by_cases h : x < 768
    · obtain ⟨hpos, hevenItem, hroom, -⟩ := rleItem_size rd lut i x h heven
      have rest := ih (rleItem rd lut i x).2 (x + (rleItem rd lut i x).1.length) (by omega) hroom (by omega)
      simp only [rlePixels, Config.linePixels, h, if_true]
      exact .item i x _ _ h rest
    · obtain rfl : x = 768 := by omega
      simp only [rlePixels, Config.linePixels, h, if_false]
      exact .full i

/-- Items from an even place on fill the line, from at most one byte for a pixel and at least two bytes for two pairs. -/
theorem RunLengthItems.size {rd : Nat → Byte} {lut : Byte → Pixel} {i x j : Nat} {px : List Pixel}
    (h : RunLengthItems rd lut i x px j) (heven : x % 2 = 0) :
    x + px.length = 768 ∧ i ≤ j ∧ j ≤ i + px.length ∧ (x < 768 → i + 1 ≤ j) ∧ (x < 766 → i + 2 ≤ j) := by
  induction h with
  | full i => simp
  | item i x j px h rest ih =>
    obtain ⟨hpos, hevenItem, hroom, hbytes⟩ := rleItem_size rd lut i x h heven
    obtain ⟨hlength, hpast, hmost, hleast, -⟩ := ih (by omega)
    rw [List.length_append]
    exact ⟨by omega, by omega, by omega, fun _ => by omega, fun _ => by omega⟩

/-! ## Unimplemented modes (46 R300) -/

theorem length_freePixels (draw n : Nat) : (freePixels draw n).length = n := by
  induction n generalizing draw with
  | zero => rfl
  | succ n ih => simp [freePixels, ih]

theorem getElem?_freePixels (draw n i : Nat) (hi : i < n) : (freePixels draw n)[i]? = some (Config.freePixel (draw + i)) := by
  induction n generalizing draw i with
  | zero => omega
  | succ n ih =>
    cases i with
    | zero => rfl
    | succ i =>
      have rest := ih (draw + 1) i (by omega)
      rw [show draw + 1 + i = draw + (i + 1) by omega] at rest
      exact rest

/-! ## The dispatch (46 R291) -/

theorem displayMode_bitmap8 {d : DisplayChannel} {l : DisplayBits} (hcm : d.dcr.getLsbD l.cm.val = false)
    (hft : d.ddr.extractLsb' l.ft.val 2 = (0 : BitVec 2) ∨ d.ddr.extractLsb' l.ft.val 2 = (1 : BitVec 2)) :
    d.displayMode l = .bitmap8 := by
  have clear : ¬ d.colorMode l = true := by rw [DisplayChannel.colorMode, hcm]; decide
  rw [DisplayChannel.displayMode, if_neg clear, if_pos (show d.fileType l = 0 ∨ d.fileType l = 1 from hft)]

theorem displayMode_rle8 {d : DisplayChannel} {l : DisplayBits} (hcm : d.dcr.getLsbD l.cm.val = false)
    (hft : d.ddr.extractLsb' l.ft.val 2 = (2 : BitVec 2)) : d.displayMode l = .rle8 := by
  have clear : ¬ d.colorMode l = true := by rw [DisplayChannel.colorMode, hcm]; decide
  have type : d.fileType l = 2 := hft
  rw [DisplayChannel.displayMode, if_neg clear, if_neg (by rw [type]; decide), if_pos type]

theorem displayMode_unimplemented {d : DisplayChannel} {l : DisplayBits}
    (h : d.dcr.getLsbD l.cm.val = true ∨ d.ddr.extractLsb' l.ft.val 2 = (3 : BitVec 2)) :
    d.displayMode l = .unimplemented := by
  rw [DisplayChannel.displayMode]
  by_cases hcm : d.colorMode l = true
  · rw [if_pos hcm]
  · have type : d.fileType l = 3 := h.resolve_left hcm
    rw [if_neg hcm, if_neg (by rw [type]; decide), if_neg (by rw [type]; decide)]

/-! ## The pixels of a line (46 R290) -/

theorem decodeLine_bitmap8 {s : State} {c : Channel} (h : (s.display c).displayMode s.config.bits = .bitmap8) :
    decodeLine s c = (bitmapPixels (streamByte s c) (clutEntry s c) 0 384, 384) := by
  rw [decodeLine, h]
  rfl

theorem decodeLine_rle8 {s : State} {c : Channel} (h : (s.display c).displayMode s.config.bits = .rle8) :
    decodeLine s c = rlePixels (streamByte s c) (clutEntry s c) 384 0 0 := by
  rw [decodeLine, h]
  rfl

theorem decodeLine_unimplemented {s : State} {c : Channel} (h : (s.display c).displayMode s.config.bits = .unimplemented) :
    decodeLine s c = (freePixels s.freeCount 768, 0) := by
  rw [decodeLine, h]
  rfl

/-- A run-length line is items of the spec from VSR on (R294). -/
theorem decodeLine_items {s : State} {c : Channel} (h : (s.display c).displayMode s.config.bits = .rle8) :
    RunLengthItems (streamByte s c) (clutEntry s c) 0 0 (renderPixels s c) (decodeLine s c).2 := by
  rw [renderPixels, decodeLine_rle8 h]
  exact rlePixels_items _ _ 384 0 0 rfl (by decide) (by decide)

/-- Every line has 768 pixels, in every mode. -/
theorem length_renderPixels (s : State) (c : Channel) : (renderPixels s c).length = 768 := by
  cases h : (s.display c).displayMode s.config.bits with
  | bitmap8 =>
    rw [renderPixels, decodeLine_bitmap8 h]
    exact length_bitmapPixels _ _ 0 384
  | rle8 =>
    obtain ⟨hlength, -⟩ := (decodeLine_items h).size rfl
    omega
  | unimplemented =>
    rw [renderPixels, decodeLine_unimplemented h]
    exact length_freePixels _ 768

theorem length_compose (k : Composite) (pxA pxB : List Pixel) (h : pxA.length = 768) :
    (compose k pxA pxB).length = 768 := by
  cases k with
  | channelA => exact h
  | table rows =>
    rw [compose]
    split
    next r _ => exact r.out.size_toArray
    next => exact h

/-! ## What a line depends on (46 R299) -/

/-- All that the decoding of a channel's line looks at is the same in two states. -/
structure SameLine (s t : State) (c : Channel) : Prop where
  plane : t.plane c = s.plane c
  planeBytes : t.config.planeBytes = s.config.planeBytes
  epoch : t.epoch = s.epoch
  freeCount : t.freeCount = s.freeCount
  vsr : getVsr t c = getVsr s c
  mode : (t.display c).displayMode t.config.bits = (s.display c).displayMode s.config.bits
  clut : (t.display c).clut = (s.display c).clut

theorem SameLine.decodeLine_eq {s t : State} {c : Channel} (h : SameLine s t c) : decodeLine t c = decodeLine s c := by
  have stream : streamByte t c = streamByte s c := by
    funext i
    simp only [streamByte, planeByte, storedByte, h.plane, h.planeBytes, h.epoch, h.freeCount, h.vsr]
  have lut : clutEntry t c = clutEntry s c := by
    funext i
    simp only [clutEntry, h.clut, h.epoch]
  rw [decodeLine, decodeLine, h.mode, stream, lut, h.freeCount]

/-! ## The state rendering leaves (46 R296, R300, R305, R306) -/

/-- The registers of a channel after its line was rendered: VSR just past the bytes, or as it was in an unimplemented mode. -/
def renderedChannel (s : State) (c : Channel) : DisplayChannel :=
  if (s.display c).displayMode s.config.bits = .unimplemented then s.display c
  else (s.display c).setVsr s.config.bits ((getVsr s c).toNat + (decodeLine s c).2)

/-- What rendering a channel's line adds to the log. -/
def renderLog (s : State) (c : Channel) : List LogEvent :=
  if (s.display c).displayMode s.config.bits = .unimplemented then [.unimplementedMode] else []

theorem renderState_eq (s : State) (c : Channel) :
    renderState s c
      = { s.setDisplay c (renderedChannel s c) with log := s.log ++ renderLog s c, freeCount := s.freeCount + 768 } := by
  rw [renderState, renderedChannel, renderLog]
  cases h : (s.display c).displayMode s.config.bits with
  | unimplemented =>
    rw [if_pos rfl, if_pos rfl, setDisplay_display]
    rfl
  | bitmap8 | rle8 =>
    rw [if_neg (by decide), if_neg (by decide), List.append_nil]
    cases c <;> rfl

/-- Rendering channel 0 changes nothing that channel 1's line depends on but the count of draws. -/
theorem sameLine_renderState_a (s : State) : SameLine (drawn s 768) (renderState s .a) .b := by
  rw [renderState_eq]
  exact ⟨rfl, rfl, rfl, rfl, rfl, rfl, rfl⟩

/-- Lines that decode the same leave the same registers, where these were the same before. -/
theorem SameLine.renderedChannel_eq {s t : State} {c : Channel} (h : SameLine s t c) (hd : t.display c = s.display c)
    (hb : t.config.bits = s.config.bits) : renderedChannel t c = renderedChannel s c := by
  rw [renderedChannel, renderedChannel, h.decodeLine_eq, h.vsr, hd, hb]

/-- The whole state after a line was rendered. -/
theorem renderLine_eq (s : State) :
    renderLine s = { s with
      chA := renderedChannel s .a
      chB := renderedChannel (drawn s 768) .b
      videoOut := s.videoOut ++ [⟨s.line, renderPixels s .a, renderPixels (drawn s 768) .b,
        compose s.config.composite (renderPixels s .a) (renderPixels (drawn s 768) .b)⟩]
      log := s.log ++ renderLog s .a ++ renderLog s .b
      freeCount := s.freeCount + 1536 } := by
  have same := sameLine_renderState_a s
  have pixels : renderPixels (renderState s .a) .b = renderPixels (drawn s 768) .b := congrArg Prod.fst same.decodeLine_eq
  have channel : renderedChannel (renderState s .a) .b = renderedChannel (drawn s 768) .b :=
    same.renderedChannel_eq (by rw [renderState_eq]; rfl) (by rw [renderState_eq]; rfl)
  rw [renderLine]
  simp only [pixels]
  rw [renderState_eq (renderState s .a) .b, channel, renderState_eq s .a]
  rfl

/-- VSR after rendering (R296, R300). -/
theorem toNat_getVsr_renderedChannel (s : State) (c : Channel) :
    ((renderedChannel s c).getVsr s.config.bits).toNat
      = if (s.display c).displayMode s.config.bits = .unimplemented then (getVsr s c).toNat
        else ((getVsr s c).toNat + (decodeLine s c).2) % 2 ^ 22 := by
  rw [renderedChannel]
  split
  · rfl
  · exact toNat_getVsr_setVsr _ _ _

theorem toNat_getVsr_renderState (s : State) (c : Channel) :
    (getVsr (renderState s c) c).toNat
      = if (s.display c).displayMode s.config.bits = .unimplemented then (getVsr s c).toNat
        else ((getVsr s c).toNat + (decodeLine s c).2) % 2 ^ 22 := by
  rw [← toNat_getVsr_renderedChannel, renderState_eq]
  cases c <;> rfl

/-- Rendering keeps every bit of DCR outside VSR's high field, and every register but DCR and VSR. -/
theorem renderedChannel_frame (s : State) (c : Channel) :
    renderedChannel s c
      = { s.display c with vsr := (renderedChannel s c).vsr, dcr := (renderedChannel s c).dcr }
    ∧ ∀ i, i < 16 → inField s.config.bits.vsrHigh.val 6 i = false →
        (renderedChannel s c).dcr.getLsbD i = (s.display c).dcr.getLsbD i := by
  rw [renderedChannel]
  split
  · exact ⟨rfl, fun _ _ _ => rfl⟩
  · exact setVsr_frame _ _ _

/-- Setting or clearing DA, whether before rendering or after, changes nothing of what rendering does. -/
theorem renderLine_setDisplayActive (s : State) (v : Bool) :
    renderLine (setDisplayActive s v)
      = { renderLine s with chA := { (renderLine s).chA with csrr := (setDisplayActive s v).chA.csrr } } := by
  have sameA : SameLine s (setDisplayActive s v) .a := ⟨rfl, rfl, rfl, rfl, rfl, rfl, rfl⟩
  have sameB : SameLine (drawn s 768) (drawn (setDisplayActive s v) 768) .b := ⟨rfl, rfl, rfl, rfl, rfl, rfl, rfl⟩
  have pixelsA : renderPixels (setDisplayActive s v) .a = renderPixels s .a := congrArg Prod.fst sameA.decodeLine_eq
  have pixelsB : renderPixels (drawn (setDisplayActive s v) 768) .b = renderPixels (drawn s 768) .b :=
    congrArg Prod.fst sameB.decodeLine_eq
  have channelB := sameB.renderedChannel_eq rfl rfl
  have channelA : renderedChannel (setDisplayActive s v) .a
      = { renderedChannel s .a with csrr := (setDisplayActive s v).chA.csrr } := by
    rw [renderedChannel, renderedChannel, sameA.decodeLine_eq, sameA.vsr, sameA.mode]
    split <;> rfl
  rw [renderLine_eq, renderLine_eq, pixelsA, pixelsB, channelA, channelB]
  rfl

/-! ## The turns of the channels (47 R323, R326) -/

/-- The channels' turns write the walker's registers, the line number and the time of the next scan event only. -/
theorem walkA_frame (s : State) (m : Mode) :
    walkA s m = { s with walk := (walkA s m).walk, line := (walkA s m).line, scanDue := (walkA s m).scanDue } := by
  obtain ⟨-, e⟩ | ⟨-, e⟩ := walkA_cases s m
  · rw [e]
    rfl
  · obtain ⟨-, e'⟩ | ⟨-, e'⟩ := walkB_cases s m
    · rw [e, e']
      rfl
    · rw [e, e']
      rfl

theorem beginScan_idle {s : State} (h : lineProcessed s = false ∨ (0 < s.line ∧ s.line < 22)) :
    beginScan s = finishLine s := by
  obtain hp | hline := h
  · rw [beginScan, hp]
    rfl
  · obtain ⟨-, e⟩ | ⟨-, h0, -⟩ | ⟨-, -, -, e⟩ | ⟨-, h22, -⟩ := beginScan_cases s
    · exact e
    · omega
    · exact e
    · exact absurd h22 (Nat.not_le.mpr hline.2)

theorem beginScan_lineZero {s : State} (hp : lineProcessed s = true) (hline : s.line = 0) :
    beginScan s = walkA (setDisplayActive s false) .ica := by
  rw [beginScan, if_pos hp, if_pos hline]

theorem beginScan_active {s : State} (hp : lineProcessed s = true) (hline : 22 ≤ s.line) :
    beginScan s = walkA (renderLine (setDisplayActive s true)) .dca := by
  have h0 : s.line ≠ 0 := by omega
  have h22 : Config.firstActiveLine ≤ s.line := hline
  rw [beginScan, if_pos hp, if_neg h0, if_pos h22]

/-- Up to its first command the event of an active line does no more than render it, set DA, and write the walker's registers, the
line number and the time of the next scan event. -/
theorem beginScan_active_frame {s : State} (hp : lineProcessed s = true) (hline : 22 ≤ s.line) :
    ∃ x w n due, beginScan s
      = { renderLine s with chA := { (renderLine s).chA with csrr := x }, walk := w, line := n, scanDue := due } := by
  rw [beginScan_active hp hline, renderLine_setDisplayActive, walkA_frame]
  exact ⟨_, _, _, _, rfl⟩

/-- The event of line 0 clears DA, and writes the walker's registers, the line number and the time of the next scan event. -/
theorem beginScan_lineZero_frame {s : State} (hp : lineProcessed s = true) (hline : s.line = 0) :
    ∃ x w n due, beginScan s = { s with chA := { s.chA with csrr := x }, walk := w, line := n, scanDue := due } := by
  rw [beginScan_lineZero hp hline, walkA_frame]
  exact ⟨_, _, _, _, rfl⟩

end Sys2Proof.Machine

namespace Sys2Proof

open Machine

/-! ## The obligations -/

/-- Settles O35: the bitmap decoder byte by byte, and VSR past its 384 bytes. -/
theorem bitmapLineIsTwoPixelsAByte : Obligations.BitmapLineIsTwoPixelsAByte := by
  intro s c hcm hft
  have mode := displayMode_bitmap8 hcm hft
  have line := decodeLine_bitmap8 mode
  have pixels : renderPixels s c = bitmapPixels (streamByte s c) (clutEntry s c) 0 384 := congrArg Prod.fst line
  refine ⟨length_renderPixels s c, fun i hi => ?pixel, ?vsr⟩
  case pixel =>
    obtain ⟨even, odd⟩ := getElem?_bitmapPixels (streamByte s c) (clutEntry s c) 0 384 i hi
    rw [Nat.zero_add] at even odd
    rw [pixels, even, odd]
    exact ⟨rfl, rfl⟩
  case vsr =>
    rw [toNat_getVsr_renderState, if_neg (by rw [mode]; decide), line]

/-- Settles O36: the three forms of an item. -/
theorem runLengthItemPixels : Obligations.RunLengthItemPixels :=
  fun rd lut i x _ => ⟨rleItem_literal rd lut i x, rleItem_fill rd lut i x, rleItem_run rd lut i x⟩

/-- Settles O37: the loop is the items of the spec, whose pixels fill the line. -/
theorem runLengthLineFillsTheLine : Obligations.RunLengthLineFillsTheLine := by
  intro s c hcm hft
  have mode := displayMode_rle8 hcm hft
  have items := decodeLine_items mode
  obtain ⟨hlength, -, hmost, -, hleast⟩ := items.size rfl
  refine ⟨length_renderPixels s c, (decodeLine s c).2, by omega, by omega, rfl, items, ?vsr⟩
  case vsr =>
    rw [toNat_getVsr_renderState, if_neg (by rw [mode]; decide)]

/-- Settles O38: pixels by number of the draw, and a state that is only logged. -/
theorem unimplementedModesKeepVsr : Obligations.UnimplementedModesKeepVsr := by
  intro s c h
  have mode := displayMode_unimplemented h
  refine ⟨length_renderPixels s c, fun i hi => ?pixel, ?state⟩
  case pixel =>
    rw [renderPixels, decodeLine_unimplemented mode]
    exact getElem?_freePixels _ 768 i hi
  case state =>
    rw [renderState_eq, renderedChannel, renderLog, if_pos mode, if_pos mode, setDisplay_display]

/-- Settles O39: what a line depends on. -/
theorem pixelsDependOnTheirChannelOnly : Obligations.PixelsDependOnTheirChannelOnly := by
  intro s t c hplane hbytes hepoch hfree hvsr hmode hclut
  have same : SameLine s t c := ⟨hplane, hbytes, hepoch, hfree, hvsr, hmode, hclut⟩
  exact congrArg Prod.fst same.decodeLine_eq

/-- Settles O40: the whole state after rendering, and the event around it, which writes DA, the walker's registers, the line number
and the next due time. -/
theorem activeLineAppendsOneRecord : Obligations.ActiveLineAppendsOneRecord := by
  intro s pxA pxB
  have whole := renderLine_eq s
  have chA : (renderLine s).chA = renderedChannel s .a := by rw [whole]
  have chB : (renderLine s).chB = renderedChannel (drawn s 768) .b := by rw [whole]
  have config : (renderLine s).config = s.config := by rw [whole]
  refine ⟨?wholeState, ?channelA, ?channelB, ?vsrA, ?vsrB, fun c i hi hfield => ?dcr, rfl, fun hp hline => ?active,
    fun hp hline => ?lineZero⟩
  case wholeState =>
    have frameA : { s.chA with vsr := (renderedChannel s .a).vsr, dcr := (renderedChannel s .a).dcr }
        = renderedChannel s .a := (renderedChannel_frame s .a).1.symm
    have frameB : { s.chB with
          vsr := (renderedChannel (drawn s 768) .b).vsr, dcr := (renderedChannel (drawn s 768) .b).dcr }
        = renderedChannel (drawn s 768) .b := (renderedChannel_frame (drawn s 768) .b).1.symm
    rw [chA, chB, frameA, frameB, whole]
  case channelA => rw [chA, renderState_eq]; rfl
  case channelB => rw [chB, renderState_eq]; rfl
  case vsrA =>
    rw [← toNat_getVsr_renderedChannel, ← chA, whole]
    rfl
  case vsrB =>
    have vsr := toNat_getVsr_renderedChannel (drawn s 768) .b
    rw [← chB] at vsr
    rw [getVsr, config]
    exact vsr
  case dcr =>
    cases c with
    | a =>
      rw [display_a, chA]
      exact (renderedChannel_frame s .a).2 i hi hfield
    | b =>
      rw [display_b, chB]
      exact (renderedChannel_frame (drawn s 768) .b).2 i hi hfield
  case active =>
    obtain ⟨x, w, n, due, e⟩ := beginScan_active_frame hp hline
    rw [e]
    exact ⟨by rw [whole], fun c => by cases c <;> rfl, rfl⟩
  case lineZero =>
    obtain ⟨x, w, n, due, e⟩ := beginScan_lineZero_frame hp hline
    rw [e]

end Sys2Proof
end

section
/-!
SUPPORT. 43 walker: the command a step fetches and runs (R211), the end of an invocation (R216), the cap of a DCA (R213, R215), and
the hang of an ICA (R215).
-/
namespace Sys2Proof.Machine

/-! ## The fetch (43 R211, 20 R86) -/

/-- A command of two words of two bytes is the command of the four bytes. -/
theorem joinCommand_eq (b0 b1 b2 b3 : Byte) :
    ((b0 ++ b1 : Half) ++ (b2 ++ b3 : Half) : Command) = joinCommand b0 b1 b2 b3 := by
  apply BitVec.eq_of_getLsbD_eq
  intro i hi
  rw [getLsbD_halves, getLsbD_bytes, getLsbD_bytes]
  simp only [joinCommand, BitVec.getLsbD_append]
  by_cases h8 : i < 8
  · simp [h8, show i < 16 by omega]
  · by_cases h16 : i < 16
    · simp [h8, h16, show i - 8 < 8 by omega]
    · simp [h8, h16, show ¬ i - 8 < 8 by omega, Nat.sub_sub]

theorem fetchCommand_eq (s : State) :
    fetchCommand s = joinCommand (planeByte s s.chan (2 * s.walk.ip) s.freeCount)
      (planeByte s s.chan (2 * s.walk.ip + 1) (s.freeCount + 1))
      (planeByte s s.chan (2 * s.walk.ip + 2) (s.freeCount + 2))
      (planeByte s s.chan (2 * s.walk.ip + 3) (s.freeCount + 3)) :=
  joinCommand_eq _ _ _ _

/-- Where all four bytes lie in the plane, the command fetched does not depend on the draws. -/
theorem fetchCommand_congr {s t : State} (hA : t.planeA = s.planeA) (hB : t.planeB = s.planeB) (hc : t.config = s.config)
    (he : t.epoch = s.epoch) (hchan : t.chan = s.chan) (hip : t.walk.ip = s.walk.ip)
    (h : 2 * s.walk.ip + 3 < s.config.planeBytes) : fetchCommand t = fetchCommand s := by
  have byte (a draw draw' : Nat) (ha : a < s.config.planeBytes) : planeByte t s.chan a draw = planeByte s s.chan a draw' := by
    rw [planeByte_congr s t hA hB hc he, planeByte, planeByte, if_pos ha, if_pos ha]
  rw [fetchCommand_eq, fetchCommand_eq, hchan, hip, byte _ _ s.freeCount (by omega), byte _ _ (s.freeCount + 1) (by omega),
    byte _ _ (s.freeCount + 2) (by omega), byte _ _ (s.freeCount + 3) (by omega)]

/-! ## After a command (43 R211, R213) -/

theorem walkOver_iff (s : State) :
    walkOver s = true ↔ s.walk.stop = true ∨ (s.walk.mode = .dca ∧ s.walk.count = s.walk.max) := by
  simp [walkOver]

theorem walkOver_of_cap {s : State} (hm : s.walk.mode = .dca) (hcap : s.walk.count = s.walk.max) : walkOver s = true :=
  (walkOver_iff s).mpr (.inr ⟨hm, hcap⟩)

@[simp] theorem endWalk_walk (s : State) : (endWalk s).walk = Walker.idle := rfl

/-- The end of an invocation writes one channel's DCP and the walker's registers at most. -/
theorem endWalk_frame (s : State) :
    endWalk s = { s with chA := (endWalk s).chA, chB := (endWalk s).chB, walk := Walker.idle } := by
  obtain ⟨-, -, e⟩ | ⟨-, e⟩ := endWalk_cases s <;> rw [e]
  rfl

/-- What a command leaves of the walker's registers, seen from before the fetch. -/
theorem command_walk {s u : State} (h : exec (nextCommand s) (advance s) = .next u) :
    u.walk = { s.walk with
      ip := u.walk.ip, count := s.walk.count + 1, dcpReloaded := u.walk.dcpReloaded
      stop := s.walk.stop || (nextCommand s).halts } :=
  exec_walk h

/-- No command writes anything of the sequencer or the configuration. -/
theorem command_line {s u : State} (h : exec (nextCommand s) (advance s) = .next u) :
    u.line = s.line ∧ u.config = s.config := by
  rw [exec_frame _ _ _ h]
  exact ⟨rfl, rfl⟩

/-- Where a step of a walk can lead: the walk goes on; it is over and the line is finished; or it was channel 0's and
channel 1's starts. -/
theorem step_walk_cases {s : State} (hrun : s.walk.running = true) :
    ∃ u, exec (nextCommand s) (advance s) = .next u
      ∧ ((walkOver u = false ∧ step s = .next u)
        ∨ (walkOver u = true ∧ step s = .next (finishLine (endWalk u)))
        ∨ (walkOver u = true ∧ s.walk.chan = .a ∧ step s = .next (startWalk (endWalk u) .b s.walk.mode))) := by
  obtain ⟨u, hu⟩ := exec_hasNext (nextCommand s) (advance s)
  refine ⟨u, hu, ?_⟩
  have hwalk := command_walk hu
  have hchan : u.walk.chan = s.walk.chan := by rw [hwalk]
  have hmode : u.walk.mode = s.walk.mode := by rw [hwalk]
  rw [step_of_exec hrun hu]
  obtain ⟨hover, e⟩ | ⟨hover, e⟩ := afterCommand_cases u
  · exact .inl ⟨hover, by rw [e]⟩
  · rw [e, hchan, hmode]
    obtain e' | ⟨ha, e'⟩ := afterWalk_cases (endWalk u) s.walk.chan s.walk.mode
    · exact .inr (.inl ⟨hover, by rw [e']⟩)
    · exact .inr (.inr ⟨hover, ha, by rw [e']⟩)

/-! ## A DCA invocation is bounded (43 R213, R215) -/

theorem dcaCap_cases (d : DisplayChannel) (l : DisplayBits) : d.dcaCap l = 32 ∨ d.dcaCap l = 64 := by
  rw [DisplayChannel.dcaCap]
  split
  · exact .inr rfl
  · exact .inl rfl

/-- A DCA walk in progress, below its cap. -/
structure InDca (s : State) : Prop where
  running : s.walk.running = true
  mode : s.walk.mode = .dca
  belowCap : s.walk.count < s.walk.max

theorem InDca.of_startWalk (s : State) (c : Channel) : InDca (startWalk s c .dca) where
  running := rfl
  mode := rfl
  belowCap := by
    show 0 < (s.display c).dcaCap s.config.bits
    obtain h | h := dcaCap_cases (s.display c) s.config.bits <;> omega

/-- A step of a DCA: the line is finished; channel 1's walk starts; or the walk goes on, one command nearer to its cap. -/
theorem InDca.step_cases {s : State} (h : InDca s) :
    ∃ t, step s = .next t ∧ t.config = s.config
      ∧ ((t.walk = Walker.idle ∧ t.line = (s.line + 1) % s.config.totalLines)
        ∨ (s.walk.chan = .a ∧ InDca t ∧ t.walk.chan = .b ∧ t.walk.count = 0 ∧ t.walk.max ≤ 64 ∧ t.line = s.line)
        ∨ (InDca t ∧ t.walk.chan = s.walk.chan ∧ t.walk.count = s.walk.count + 1 ∧ t.walk.max = s.walk.max
          ∧ t.line = s.line)) := by
  obtain ⟨u, hu, hcases⟩ := step_walk_cases h.running
  have hwalk := command_walk hu
  have hcount : u.walk.count = s.walk.count + 1 := by rw [hwalk]
  have hmax : u.walk.max = s.walk.max := by rw [hwalk]
  have hmode : u.walk.mode = .dca := by rw [hwalk]; exact h.mode
  obtain ⟨hline, hconfig⟩ := command_line hu
  have hend := endWalk_frame u
  obtain ⟨hover, e⟩ | ⟨-, e⟩ | ⟨-, ha, e⟩ := hcases
  · refine ⟨u, e, hconfig, .inr (.inr ⟨⟨by rw [hwalk]; exact h.running, hmode, ?_⟩, by rw [hwalk], hcount, hmax, hline⟩)⟩
    obtain ⟨-, hica | hne⟩ := (walkOver_eq_false_iff u).mp hover
    · rw [hmode] at hica
      cases hica
    · have := h.belowCap
      omega
  · refine ⟨_, e, ?_, .inl ⟨rfl, ?_⟩⟩
    · rw [finishLine_config, hend]
      exact hconfig
    · rw [finishLine_line, hend]
      simp only [hline, hconfig]
  · rw [h.mode] at e
    refine ⟨_, e, ?_, .inr (.inl ⟨ha, .of_startWalk _ _, rfl, rfl, ?_, ?_⟩)⟩
    · rw [startWalk_config, hend]
      exact hconfig
    · obtain hcap | hcap := dcaCap_cases ((endWalk u).display .b) (endWalk u).config.bits
      · exact hcap.trans_le (by decide)
      · exact hcap.le
    · rw [startWalk_line, hend]
      exact hline

theorem run_succ {s t : State} (k : Nat) (h : step s = .next t) :
    Sys2Proof.core.run (k + 1) s = Sys2Proof.core.run k t := by
  have core_step : Sys2Proof.core.step s = .next t := h
  have unfolded := Host.Core.run.eq_def Sys2Proof.core (k + 1) s
  simp only [core_step] at unfolded
  exact unfolded

/-- From any point of a DCA, at most as many steps as commands are left below the cap end the invocation. -/
theorem InDca.ends {s : State} (h : InDca s) :
    ∃ k t, 0 < k ∧ k ≤ s.walk.max - s.walk.count ∧ Sys2Proof.core.run k s = .next t
      ∧ (t.walk.running = false ∨ (s.walk.chan = .a ∧ t.walk.chan = .b ∧ t.walk.count = 0)) := by
  obtain ⟨n, hn⟩ : ∃ n, n = s.walk.max - s.walk.count := ⟨_, rfl⟩
  induction n generalizing s with
  | zero =>
    have := h.belowCap
    omega
  | succ n ih =>
    obtain ⟨t, hstep, -, ⟨hidle, -⟩ | ⟨ha, -, hb, hzero, -⟩ | ⟨ht, hchan, hcount, hmax, -⟩⟩ := h.step_cases
    · exact ⟨1, t, by decide, by omega, run_succ 0 hstep, .inl (by rw [hidle]; rfl)⟩
    · exact ⟨1, t, by decide, by omega, run_succ 0 hstep, .inr ⟨ha, hb, hzero⟩⟩
    · obtain ⟨k, u, hpos, hk, hrun, hend⟩ := ih ht (by omega)
      exact ⟨k + 1, u, by omega, by omega, (run_succ k hstep).trans hrun, by rwa [hchan] at hend⟩

/-! ## Runs to the end of an event (47 R326) -/

theorem settle_idle {s : State} (h : s.walk.running = false) (fuel : Nat) : settle fuel s = some s := by
  cases fuel <;> simp [settle, h]

theorem settle_step {s t : State} (h : s.walk.running = true) (hstep : step s = .next t) (fuel : Nat) :
    settle (fuel + 1) s = settle fuel t := by
  rw [settle, if_pos h, hstep]

/-- The most commands a DCA line can still run: those below the cap, and 64 of channel 1's after channel 0's. -/
def dcaBudget (s : State) : Nat :=
  s.walk.max - s.walk.count + match s.walk.chan with | .a => 64 | .b => 0

/-- From any point of a DCA, the event of its line completes within its budget. -/
theorem InDca.settles {s : State} (h : InDca s) (fuel : Nat) (hfuel : dcaBudget s ≤ fuel) :
    ∃ t, settle fuel s = some t ∧ t.walk.running = false ∧ t.line = (s.line + 1) % s.config.totalLines := by
  induction fuel generalizing s with
  | zero =>
    have := h.belowCap
    simp only [dcaBudget] at hfuel
    omega
  | succ fuel ih =>
    obtain ⟨t, hstep, hconfig, hnext⟩ := h.step_cases
    rw [settle_step h.running hstep]
    obtain ⟨hidle, hline⟩ | ⟨ha, ht, hb, hzero, hmax, hline⟩ | ⟨ht, hchan, hcount, hmax, hline⟩ := hnext
    · have hrun : t.walk.running = false := by rw [hidle]; rfl
      exact ⟨t, settle_idle hrun fuel, hrun, hline⟩
    · have := h.belowCap
      have hbudget : dcaBudget t ≤ fuel := by
        simp only [dcaBudget, ha] at hfuel
        simp only [dcaBudget, hb]
        omega
      rw [← hline, ← hconfig]
      exact ih ht hbudget
    · have := h.belowCap
      have hbudget : dcaBudget t ≤ fuel := by
        simp only [dcaBudget, hchan, hcount, hmax] at hfuel ⊢
        omega
      rw [← hline, ← hconfig]
      exact ih ht hbudget

theorem dcaBudget_startWalk (s : State) (c : Channel) (m : Mode) : dcaBudget (startWalk s c m) ≤ 128 := by
  have cap : (startWalk s c m).walk.max ≤ 64 := by
    obtain h | h := dcaCap_cases (s.display c) s.config.bits
    · exact h.trans_le (by decide)
    · exact h.le
  rw [dcaBudget]
  split <;> omega

@[simp] theorem renderLine_walk (s : State) : (renderLine s).walk = s.walk := by rw [renderLine_eq]

@[simp] theorem renderLine_line (s : State) : (renderLine s).line = s.line := by rw [renderLine_eq]

@[simp] theorem renderLine_config (s : State) : (renderLine s).config = s.config := by rw [renderLine_eq]

/-- The turns of the channels on an active line complete within 128 commands. -/
theorem settle_walkA_dca {s : State} (hrun : s.walk.running = false) :
    ∃ t, settle 128 (walkA s .dca) = some t ∧ t.walk.running = false ∧ t.line = (s.line + 1) % s.config.totalLines := by
  obtain ⟨-, e⟩ | ⟨-, e⟩ := walkA_cases s .dca
  · rw [e]
    exact (InDca.of_startWalk s .a).settles 128 (dcaBudget_startWalk s .a .dca)
  · obtain ⟨-, e'⟩ | ⟨-, e'⟩ := walkB_cases s .dca
    · rw [e, e']
      exact (InDca.of_startWalk s .b).settles 128 (dcaBudget_startWalk s .b .dca)
    · rw [e, e']
      exact ⟨finishLine s, settle_idle (s := finishLine s) hrun 128, hrun, rfl⟩

/-! ## An ICA that jumps to itself (43 R215, R225) -/

/-- An ICA walk whose next command is a jump to that very command. -/
structure SelfJump (addr : Addr21) (s : State) : Prop where
  running : s.walk.running = true
  mode : s.walk.mode = .ica
  goesOn : s.walk.stop = false
  inPlane : 2 * s.walk.ip + 3 < s.config.planeBytes
  next : nextCommand s = .reloadIca addr
  target : addr.toNat / 2 = s.walk.ip

theorem SelfJump.step {addr : Addr21} {s : State} (h : SelfJump addr s) :
    ∃ t, Machine.step s = .next t ∧ SelfJump addr t := by
  let t := setIp (advance s) (addr.toNat / 2)
  have hexec : exec (nextCommand s) (advance s) = .next t := by
    rw [h.next]
    rfl
  have hip : t.walk.ip = s.walk.ip := h.target
  have hfetch : fetchCommand t = fetchCommand s := fetchCommand_congr rfl rfl rfl rfl rfl hip h.inPlane
  refine ⟨t, step_of_exec_goes_on h.running hexec h.goesOn (.inl h.mode), h.running, h.mode, h.goesOn, ?_, ?_, rfl⟩
  · rw [hip]
    exact h.inPlane
  · rw [nextCommand, hfetch]
    exact h.next

theorem SelfJump.hangs {addr : Addr21} {s : State} (h : SelfJump addr s) : hangs s := by
  intro fuel
  induction fuel generalizing s with
  | zero => rw [settle, if_pos h.running]
  | succ fuel ih =>
    obtain ⟨t, hstep, ht⟩ := h.step
    rw [settle_step h.running hstep]
    exact ih ht

end Sys2Proof.Machine

namespace Sys2Proof

open Machine

/-! ## The obligations -/

/-- Settles O9: the fetch byte by byte, and the two ways on after a command. -/
theorem stepRunsTheDecodedCommand : Obligations.StepRunsTheDecodedCommand := by
  intro s t i hrun hdecode hexec
  have next : nextCommand s = i := by rw [nextCommand, fetchCommand_eq, hdecode]
  have hexec' : exec (nextCommand s) (advance s) = .next t := by rw [next]; exact hexec
  rw [step_of_exec hrun hexec', afterCommand]
  simp only [walkOver_iff]

/-- Settles O26: the two ends of an invocation, the first by what loading DCP does. -/
theorem dcpIsWrittenBackAtTheEndOfADca : Obligations.DcpIsWrittenBackAtTheEndOfADca := by
  intro s
  refine ⟨rfl, fun hm hd => ?writeBack, fun h => ?noWriteBack⟩
  case writeBack =>
    have e : endWalk s = { setDcp s s.chan (2 * s.walk.ip) with walk := Walker.idle } := by
      rw [endWalk, writeBack, if_pos ⟨hm, hd⟩]
    obtain ⟨-, haddr, hframe, hbits⟩ := setDcp_effect s s.chan (2 * s.walk.ip) Walker.idle
    rw [e]
    refine ⟨haddr, hbits, ?_⟩
    rw [← hframe, display_with_walk (setDcp s s.chan _), display_setDcp]
    rfl
  case noWriteBack =>
    have h' : ¬ (s.walk.mode = .dca ∧ s.walk.dcpReloaded = false) := by
      rintro ⟨hm, hd⟩
      simp [hm, hd] at h
    rw [endWalk, writeBack, if_neg h']

/-- Settles O27: the sample is the walk's start, and at the cap the walk is over. -/
theorem dcaCapIsSampledAtTheStart : Obligations.DcaCapIsSampledAtTheStart := by
  refine ⟨fun s c m => rfl, fun s t hrun hm hcap hstep => ?_⟩
  obtain ⟨t', hstep', -, hnext⟩ := InDca.step_cases ⟨hrun, hm, by omega⟩
  obtain rfl : t' = t := Host.Outcome.next.inj (hstep'.symm.trans hstep)
  obtain ⟨hidle, -⟩ | ⟨ha, -, hb, hzero, -⟩ | ⟨ht, -, hcount, hmax, -⟩ := hnext
  · exact .inl (by rw [hidle]; rfl)
  · exact .inr ⟨ha, hb, hzero⟩
  · have := ht.belowCap
    omega

/-- Settles O28, by induction on the commands left below the cap. -/
theorem dcaInvocationTerminates : Obligations.DcaInvocationTerminates :=
  fun _ hrun hm hcount _ => InDca.ends ⟨hrun, hm, hcount⟩

/-- Settles O29: the idle event is one step, the others run within the budget of both channels. -/
theorem activeLineEventCompletes : Obligations.ActiveLineEventCompletes := by
  intro s hrun hline
  let r : State := { drawn s 1 with now := max s.now s.scanDue }
  show ∃ t, settle 128 (beginScan r) = some t ∧ t.walk.running = false ∧ t.line = (s.line + 1) % s.config.totalLines
  cases hp : lineProcessed r with
  | false =>
    rw [beginScan_idle (.inl hp)]
    exact ⟨finishLine r, settle_idle (s := finishLine r) hrun 128, hrun, rfl⟩
  | true =>
    have hrun' : (renderLine (setDisplayActive r true)).walk.running = false := by
      rw [renderLine_walk]
      exact hrun
    obtain ⟨t, hsettle, hidle, hnext⟩ := settle_walkA_dca hrun'
    rw [renderLine_line, renderLine_config] at hnext
    rw [beginScan_active hp hline]
    exact ⟨t, hsettle, hidle, hnext⟩

/-- Settles O30, by induction on the fuel: every step leads back to the same command. -/
theorem icaJumpToItselfHangs : Obligations.IcaJumpToItselfHangs :=
  fun _ addr hrun hm hstop hplane hnext htarget => SelfJump.hangs (addr := addr) ⟨hrun, hm, hstop, hplane, hnext, htarget⟩

end Sys2Proof
end

section
/-!
SUPPORT. 47 scan event: that runs of steps and the event as the spec writes it have the same results (R321), and what the event does
to DA (R322, R324) and to the walks (R323, R326).
-/
namespace Sys2Proof.Machine

/-! ## Results under some fuel -/

/-- Steps from `s` come to an end of the event at `t`. -/
def Settles (s t : State) : Prop := ∃ fuel, settle fuel s = some t

/-- The loop of `Walk` from `s` is left at `u`. -/
def Walks (s u : State) : Prop := ∃ fuel, walkLoop fuel s = some u

theorem settles_idle_iff {s t : State} (h : s.walk.running = false) : Settles s t ↔ t = s := by
  refine ⟨fun ⟨fuel, hfuel⟩ => ?_, fun ht => ⟨0, by rw [ht]; exact settle_idle h 0⟩⟩
  rw [settle_idle h] at hfuel
  exact (Option.some.inj hfuel).symm

theorem settles_step_iff {s t u : State} (h : s.walk.running = true) (hstep : step s = .next u) :
    Settles s t ↔ Settles u t := by
  refine ⟨fun ⟨fuel, hfuel⟩ => ?_, fun ⟨fuel, hfuel⟩ => ⟨fuel + 1, (settle_step h hstep fuel).trans hfuel⟩⟩
  cases fuel with
  | zero =>
    rw [settle, if_pos h] at hfuel
    cases hfuel
  | succ fuel => exact ⟨fuel, (settle_step h hstep fuel).symm.trans hfuel⟩

theorem walkLoop_succ {s u : State} (h : exec (nextCommand s) (advance s) = .next u) (fuel : Nat) :
    walkLoop (fuel + 1) s = if walkOver u = true then some u else walkLoop fuel u := by
  rw [walkLoop, h]

/-- One command of the loop: it is left there, or it goes on. -/
theorem walks_step_iff {s u v : State} (h : exec (nextCommand s) (advance s) = .next u) :
    Walks s v ↔ (walkOver u = true ∧ v = u) ∨ (walkOver u = false ∧ Walks u v) := by
  cases hover : walkOver u with
  | true =>
    refine ⟨fun ⟨fuel, hfuel⟩ => .inl ⟨rfl, ?_⟩, fun hv => ?_⟩
    · cases fuel with
      | zero => cases hfuel
      | succ fuel =>
        rw [walkLoop_succ h, if_pos hover] at hfuel
        exact (Option.some.inj hfuel).symm
    · obtain ⟨-, rfl⟩ | ⟨habs, -⟩ := hv
      · exact ⟨1, by rw [walkLoop_succ h, if_pos hover]⟩
      · cases habs
  | false =>
    have goesOn (fuel : Nat) : walkLoop (fuel + 1) s = walkLoop fuel u := by
      rw [walkLoop_succ h, hover]
      rfl
    refine ⟨fun ⟨fuel, hfuel⟩ => .inr ⟨rfl, ?_⟩, fun hv => ?_⟩
    · cases fuel with
      | zero => cases hfuel
      | succ fuel => exact ⟨fuel, (goesOn fuel).symm.trans hfuel⟩
    · obtain ⟨habs, -⟩ | ⟨-, fuel, hfuel⟩ := hv
      · cases habs
      · exact ⟨fuel + 1, (goesOn fuel).trans hfuel⟩

theorem walkLoop_mono {s u : State} {fuel more : Nat} (h : walkLoop fuel s = some u) (hle : fuel ≤ more) :
    walkLoop more s = some u := by
  induction fuel generalizing s more with
  | zero => cases h
  | succ fuel ih =>
    obtain ⟨more, rfl⟩ : ∃ k, more = k + 1 := ⟨more - 1, by omega⟩
    obtain ⟨v, hv⟩ := exec_hasNext (nextCommand s) (advance s)
    rw [walkLoop_succ hv] at h ⊢
    split
    next hover => rwa [if_pos hover] at h
    next hover =>
      rw [if_neg hover] at h
      exact ih h (by omega)

/-! ## A walk by steps and by the loop (43 R211) -/

/-- A walk settles where the event settles that goes on after its loop is left. -/
theorem settles_walk_iff {s t : State} (hrun : s.walk.running = true) :
    Settles s t ↔ ∃ u, Walks s u ∧ Settles (afterWalk (endWalk u) s.walk.chan s.walk.mode) t := by
  constructor
  case mp =>
    rintro ⟨fuel, hfuel⟩
    induction fuel generalizing s with
    | zero =>
      rw [settle, if_pos hrun] at hfuel
      cases hfuel
    | succ fuel ih =>
      obtain ⟨v, hv⟩ := exec_hasNext (nextCommand s) (advance s)
      have hwalk := command_walk hv
      have hchan : v.walk.chan = s.walk.chan := by rw [hwalk]
      have hmode : v.walk.mode = s.walk.mode := by rw [hwalk]
      have hvrun : v.walk.running = true := by rw [hwalk]; exact hrun
      rw [settle_step hrun (step_of_exec hrun hv)] at hfuel
      obtain ⟨hover, e⟩ | ⟨hover, e⟩ := afterCommand_cases v <;> rw [e] at hfuel
      · obtain ⟨u, hu, hset⟩ := ih hvrun hfuel
        rw [hchan, hmode] at hset
        exact ⟨u, (walks_step_iff hv).mpr (.inr ⟨hover, hu⟩), hset⟩
      · rw [hchan, hmode] at hfuel
        exact ⟨v, (walks_step_iff hv).mpr (.inl ⟨hover, rfl⟩), fuel, hfuel⟩
  case mpr =>
    rintro ⟨u, ⟨fuel, hfuel⟩, hset⟩
    induction fuel generalizing s with
    | zero => cases hfuel
    | succ fuel ih =>
      obtain ⟨v, hv⟩ := exec_hasNext (nextCommand s) (advance s)
      have hwalk := command_walk hv
      have hchan : v.walk.chan = s.walk.chan := by rw [hwalk]
      have hmode : v.walk.mode = s.walk.mode := by rw [hwalk]
      have hvrun : v.walk.running = true := by rw [hwalk]; exact hrun
      rw [settles_step_iff hrun (step_of_exec hrun hv)]
      rw [walkLoop_succ hv] at hfuel
      obtain ⟨hover, e⟩ | ⟨hover, e⟩ := afterCommand_cases v <;> rw [e]
      · rw [hover] at hfuel
        exact ih hvrun (by rwa [hchan, hmode]) hfuel
      · rw [if_pos hover] at hfuel
        obtain rfl : v = u := Option.some.inj hfuel
        rwa [hchan, hmode]

/-! ## The turns of the channels (47 R323, R326) -/

/-- `r` is a result of channel `c`'s turn as the spec writes it. -/
def TurnEnds (s : State) (c : Channel) (m : Mode) (r : State) : Prop := ∃ fuel, walkIfEnabled fuel s c m = some r

theorem turnEnds_disabled {s r : State} {c : Channel} {m : Mode} (h : (s.display c).walkEnable s.config.bits m = false) :
    TurnEnds s c m r ↔ r = s := by
  have e (fuel : Nat) : walkIfEnabled fuel s c m = some s := by rw [walkIfEnabled, h]; rfl
  exact ⟨fun ⟨fuel, hr⟩ => Option.some.inj (hr.symm.trans (e fuel)), fun hr => ⟨0, by rw [hr]; exact e 0⟩⟩

theorem turnEnds_enabled {s r : State} {c : Channel} {m : Mode} (h : (s.display c).walkEnable s.config.bits m = true) :
    TurnEnds s c m r ↔ ∃ u, Walks (startWalk s c m) u ∧ r = endWalk u := by
  have e (fuel : Nat) : walkIfEnabled fuel s c m = (walkLoop fuel (startWalk s c m)).map endWalk := by
    rw [walkIfEnabled, if_pos h, walk]
  constructor
  · rintro ⟨fuel, hr⟩
    rw [e, Option.map_eq_some_iff] at hr
    obtain ⟨u, hu, rfl⟩ := hr
    exact ⟨u, ⟨fuel, hu⟩, rfl⟩
  · rintro ⟨u, ⟨fuel, hu⟩, rfl⟩
    exact ⟨fuel, by rw [e, hu]; rfl⟩

theorem walkIfEnabled_mono {s r : State} {c : Channel} {m : Mode} {fuel more : Nat} (h : walkIfEnabled fuel s c m = some r)
    (hle : fuel ≤ more) : walkIfEnabled more s c m = some r := by
  rw [walkIfEnabled] at h ⊢
  split
  next hen =>
    rw [if_pos hen, walk, Option.map_eq_some_iff] at h
    obtain ⟨u, hu, rfl⟩ := h
    rw [walk, walkLoop_mono hu hle]
    rfl
  next hen => rwa [if_neg hen] at h

/-- After a turn no walk is in progress, if there was none before. -/
theorem TurnEnds.idle {s r : State} {c : Channel} {m : Mode} (h : TurnEnds s c m r) (hrun : s.walk.running = false) :
    r.walk.running = false := by
  cases hen : (s.display c).walkEnable s.config.bits m with
  | false => rwa [(turnEnds_disabled hen).mp h]
  | true =>
    obtain ⟨u, -, rfl⟩ := (turnEnds_enabled hen).mp h
    rfl

/-- Both turns have a result under one fuel exactly if each has one under some. -/
theorem walkBoth_iff {s r : State} {m : Mode} :
    (∃ fuel, walkBoth fuel s m = some r) ↔ ∃ t, TurnEnds s .a m t ∧ TurnEnds t .b m r := by
  simp only [walkBoth, Option.bind_eq_some_iff]
  constructor
  · rintro ⟨fuel, t, ha, hb⟩
    exact ⟨t, ⟨fuel, ha⟩, fuel, hb⟩
  · rintro ⟨t, ⟨f, ha⟩, g, hb⟩
    exact ⟨max f g, t, walkIfEnabled_mono ha (le_max_left f g), walkIfEnabled_mono hb (le_max_right f g)⟩

/-- Channel 1's turn by steps: its result as the spec writes it, and the line finished. -/
theorem settles_walkB_iff {s t : State} {m : Mode} (hrun : s.walk.running = false) :
    Settles (walkB s m) t ↔ ∃ r, TurnEnds s .b m r ∧ t = finishLine r := by
  obtain ⟨hen, e⟩ | ⟨hen, e⟩ := walkB_cases s m <;> rw [e]
  · simp only [turnEnds_enabled hen]
    rw [settles_walk_iff rfl]
    have finish (u : State) : Settles (finishLine (endWalk u)) t ↔ t = finishLine (endWalk u) := settles_idle_iff rfl
    constructor
    · rintro ⟨u, hu, hset⟩
      exact ⟨_, ⟨u, hu, rfl⟩, (finish u).mp hset⟩
    · rintro ⟨r, ⟨u, hu, rfl⟩, ht⟩
      exact ⟨u, hu, (finish u).mpr ht⟩
  · simp only [turnEnds_disabled hen]
    rw [settles_idle_iff (s := finishLine s) hrun]
    simp

/-- Both turns by steps. -/
theorem settles_walkA_iff {s t : State} {m : Mode} (hrun : s.walk.running = false) :
    Settles (walkA s m) t ↔ ∃ r, (∃ fuel, walkBoth fuel s m = some r) ∧ t = finishLine r := by
  simp only [walkBoth_iff]
  obtain ⟨hen, e⟩ | ⟨hen, e⟩ := walkA_cases s m <;> rw [e]
  · simp only [turnEnds_enabled hen]
    rw [settles_walk_iff rfl]
    have turnB (u : State) : Settles (walkB (endWalk u) m) t ↔ ∃ r, TurnEnds (endWalk u) .b m r ∧ t = finishLine r :=
      settles_walkB_iff rfl
    constructor
    · rintro ⟨u, hu, hset⟩
      obtain ⟨r, hr, ht⟩ := (turnB u).mp hset
      exact ⟨r, ⟨_, ⟨u, hu, rfl⟩, hr⟩, ht⟩
    · rintro ⟨r, ⟨_, ⟨u, hu, rfl⟩, hr⟩, ht⟩
      exact ⟨u, hu, (turnB u).mpr ⟨r, hr, ht⟩⟩
  · simp only [turnEnds_disabled hen]
    rw [settles_walkB_iff hrun]
    simp

/-! ## The event as the spec writes it, line by line (47 R321) -/

theorem scanEvent_idle {s : State} (h : lineProcessed s = false ∨ (0 < s.line ∧ s.line < 22)) (fuel : Nat) :
    scanEvent fuel s = some (finishLine s) := by
  rw [scanEvent]
  obtain hp | ⟨h0, h22⟩ := h
  · simp [hp]
  · have h22' : ¬ Config.firstActiveLine ≤ s.line := Nat.not_le.mpr h22
    simp [Nat.ne_of_gt h0, h22']

theorem scanEvent_lineZero {s : State} (hp : lineProcessed s = true) (hline : s.line = 0) (fuel : Nat) :
    scanEvent fuel s = (walkBoth fuel (setDisplayActive s false) .ica).map finishLine := by
  simp [scanEvent, hp, hline]

theorem scanEvent_active {s : State} (hp : lineProcessed s = true) (hline : 22 ≤ s.line) (fuel : Nat) :
    scanEvent fuel s = (walkBoth fuel (renderLine (setDisplayActive s true)) .dca).map finishLine := by
  have h0 : s.line ≠ 0 := by omega
  have h22 : Config.firstActiveLine ≤ s.line := hline
  simp [scanEvent, hp, h0, h22]

/-- Each line is gated off or idle, line 0, or active. -/
theorem line_cases (s : State) :
    (lineProcessed s = false ∨ (0 < s.line ∧ s.line < 22)) ∨ (lineProcessed s = true ∧ s.line = 0)
    ∨ (lineProcessed s = true ∧ 22 ≤ s.line) := by
  cases hp : lineProcessed s with
  | false => exact .inl (.inl rfl)
  | true =>
    by_cases h0 : s.line = 0
    · exact .inr (.inl ⟨rfl, h0⟩)
    · by_cases h22 : 22 ≤ s.line
      · exact .inr (.inr ⟨rfl, h22⟩)
      · exact .inl (.inr ⟨by omega, by omega⟩)

/-- The event's loops under some fuel, for an event that runs both turns from `u` in mode `m`. -/
theorem exists_map_walkBoth_iff {u t : State} {m : Mode} :
    (∃ fuel, (walkBoth fuel u m).map finishLine = some t) ↔ ∃ r, (∃ fuel, walkBoth fuel u m = some r) ∧ t = finishLine r := by
  simp only [Option.map_eq_some_iff]
  constructor
  · rintro ⟨fuel, r, hr, rfl⟩
    exact ⟨r, ⟨fuel, hr⟩, rfl⟩
  · rintro ⟨r, ⟨fuel, hr⟩, rfl⟩
    exact ⟨fuel, r, hr, rfl⟩

/-! ## Where a walk starts (47 R323, R326) -/

/-- What the start of a walk looks at is the same in two states. -/
structure SameStart (s t : State) (m : Mode) : Prop where
  enable : ∀ c, (t.display c).walkEnable t.config.bits m = (s.display c).walkEnable s.config.bits m
  walk : ∀ c, (startWalk t c m).walk = (startWalk s c m).walk

/-- Both channels' turns, seen in the walker's registers. -/
theorem walkA_walk (s : State) (m : Mode) :
    (walkA s m).walk
      = if (s.display .a).walkEnable s.config.bits m = true then (startWalk s .a m).walk
        else if (s.display .b).walkEnable s.config.bits m = true then (startWalk s .b m).walk else s.walk := by
  obtain ⟨hen, e⟩ | ⟨hen, e⟩ := walkA_cases s m
  · rw [e, if_pos hen]
  · obtain ⟨hen', e'⟩ | ⟨hen', e'⟩ := walkB_cases s m
    · rw [e, e', hen, if_pos hen']
      rfl
    · rw [e, e', hen, hen']
      rfl

theorem SameStart.walkA_walk_eq {s t : State} {m : Mode} (h : SameStart s t m) (hwalk : t.walk = s.walk) :
    (walkA t m).walk = (walkA s m).walk := by
  rw [walkA_walk, walkA_walk, h.enable, h.enable, h.walk, h.walk, hwalk]

/-- In a layout whose fields share no bit, no flag lies in VSR's high field. -/
theorem flag_not_in_vsrHigh {l : DisplayBits} (h : l.disjoint = true) {i : Nat} (hi : i ∈ l.dcrFlags) :
    inField l.vsrHigh.val 6 i = false := by
  simp only [DisplayBits.disjoint, Bool.and_eq_true, List.all_eq_true] at h
  obtain ⟨⟨⟨-, hflags⟩, -⟩, -⟩ := h
  simpa using hflags i hi

/-- Rendering a line leaves alone what the start of a walk looks at, where VSR's high field shares no bit with a flag. -/
theorem sameStart_renderLine {s : State} (h : s.config.bits.disjoint = true) (m : Mode) : SameStart s (renderLine s) m := by
  have channel (c : Channel) : ∃ u, u.display c = s.display c ∧ u.config = s.config
      ∧ (renderLine s).display c = renderedChannel u c := by
    cases c with
    | a => exact ⟨s, rfl, rfl, by rw [renderLine_eq]; rfl⟩
    | b => exact ⟨drawn s 768, rfl, rfl, by rw [renderLine_eq]; rfl⟩
  have flag (c : Channel) (i : Fin 16) (hi : i.val ∈ s.config.bits.dcrFlags) :
      ((renderLine s).display c).dcr.getLsbD i.val = (s.display c).dcr.getLsbD i.val := by
    obtain ⟨u, hd, hc, e⟩ := channel c
    rw [e, ← hd]
    refine (renderedChannel_frame u c).2 i i.isLt ?_
    rw [hc]
    exact flag_not_in_vsrHigh h hi
  have dcp (c : Channel) : ((renderLine s).display c).getDcp s.config.bits = (s.display c).getDcp s.config.bits := by
    obtain ⟨u, hd, -, e⟩ := channel c
    rw [e, (renderedChannel_frame u c).1, hd]
    rfl
  have config : (renderLine s).config = s.config := renderLine_config s
  refine ⟨fun c => ?_, fun c => ?_⟩
  · rw [config]
    cases m
    · exact flag c s.config.bits.ica (by simp [DisplayBits.dcrFlags])
    · exact flag c s.config.bits.dca (by simp [DisplayBits.dcrFlags])
  · have cap : ((renderLine s).display c).dcaCap s.config.bits = (s.display c).dcaCap s.config.bits := by
      have colour : ((renderLine s).display c).colorMode s.config.bits = (s.display c).colorMode s.config.bits :=
        flag c s.config.bits.cm (by simp [DisplayBits.dcrFlags])
      rw [DisplayChannel.dcaCap, colour]
      rfl
    have entry : walkEntry (renderLine s) c m = walkEntry s c m := by
      cases m
      · rfl
      · simp only [walkEntry, getDcp, config, dcp]
    simp only [startWalk, entry, config, cap]

theorem sameStart_setDisplayActive (s : State) (v : Bool) (m : Mode) : SameStart s (setDisplayActive s v) m :=
  ⟨fun c => by cases c <;> rfl, fun c => by cases c <;> rfl⟩

/-- The walk that a processed event starts is the one its channels' registers ask for. -/
theorem beginScan_walk {s : State} (h : s.config.bits.disjoint = true) {m : Mode} (hp : lineProcessed s = true)
    (hm : (m = .ica ∧ s.line = 0) ∨ (m = .dca ∧ 22 ≤ s.line)) : (beginScan s).walk = (walkA s m).walk := by
  obtain ⟨rfl, hline⟩ | ⟨rfl, hline⟩ := hm
  · rw [beginScan_lineZero hp hline]
    exact (sameStart_setDisplayActive s false .ica).walkA_walk_eq rfl
  · have h' : (setDisplayActive s true).config.bits.disjoint = true := h
    rw [beginScan_active hp hline, (sameStart_renderLine h' .dca).walkA_walk_eq (renderLine_walk _)]
    exact (sameStart_setDisplayActive s true .dca).walkA_walk_eq rfl

/-! ## DA (47 R322, R324) -/

/-- DA takes its value, and every other bit of channel 0's status stays. -/
theorem getLsbD_setDisplayActive (s : State) (v : Bool) (i : Nat) (hi : i < 8) :
    (setDisplayActive s v).chA.csrr.getLsbD i = if i = s.config.bits.da.val then v else s.chA.csrr.getLsbD i := by
  refine (getLsbD_putField _ _ _ i hi).trans ?_
  by_cases h : i = s.config.bits.da.val
  · simp [h]
  · rw [if_neg h, if_neg (by omega)]
    rfl

@[simp] theorem walkA_chA (s : State) (m : Mode) : (walkA s m).chA = s.chA := by rw [walkA_frame]

@[simp] theorem walkA_chB (s : State) (m : Mode) : (walkA s m).chB = s.chB := by rw [walkA_frame]

end Sys2Proof.Machine

namespace Sys2Proof

open Machine

/-! ## The obligations -/

/-- Settles O32: line by line, both turns by steps and by the loops of the spec. -/
theorem stepsRefineTheScanEvent : Obligations.StepsRefineTheScanEvent := by
  intro s t hrun
  show Settles (beginScan s) t ↔ _
  obtain hidle | ⟨hp, hline⟩ | ⟨hp, hline⟩ := line_cases s
  · rw [beginScan_idle hidle, settles_idle_iff (s := finishLine s) hrun]
    simp only [scanEvent_idle hidle, Option.some.injEq, exists_const, eq_comm]
  · simp only [scanEvent_lineZero hp hline, exists_map_walkBoth_iff]
    rw [beginScan_lineZero hp hline]
    exact settles_walkA_iff hrun
  · simp only [scanEvent_active hp hline, exists_map_walkBoth_iff]
    rw [beginScan_active hp hline]
    refine settles_walkA_iff ?_
    rw [renderLine_walk]
    exact hrun

/-- Settles O33: DA bit by bit, the idle event as a whole, and channel 1's status on every line. -/
theorem scanEventFollowsTheLine : Obligations.ScanEventFollowsTheLine := by
  refine ⟨fun s => ⟨fun hp hline i hi => ?clears, fun hp hline i hi => ?sets, fun h => ?idle, ?channel1⟩, rfl, rfl⟩
  case clears =>
    rw [beginScan_lineZero hp hline, walkA_chA]
    exact getLsbD_setDisplayActive s false i hi
  case sets =>
    rw [beginScan_active hp hline, walkA_chA, renderLine_setDisplayActive]
    exact getLsbD_setDisplayActive s true i hi
  case idle =>
    refine beginScan_idle (h.symm.imp ?_ fun h => ⟨by omega, h.2⟩)
    rintro ⟨honour, hde⟩
    rw [lineProcessed, honour, display_a, DisplayChannel.displayEnable, hde]
    rfl
  case channel1 =>
    obtain hidle | ⟨hp, hline⟩ | ⟨hp, hline⟩ := line_cases s
    · rw [beginScan_idle hidle]
      rfl
    · rw [beginScan_lineZero hp hline, walkA_chB]
      rfl
    · rw [beginScan_active hp hline, walkA_chB, renderLine_setDisplayActive]
      rw [renderLine_frame]

/-- Settles O34: the walk of both turns, and channel 1's turn after channel 0's. -/
theorem walksStartOnlyWhereEnabled : Obligations.WalksStartOnlyWhereEnabled := by
  refine ⟨?_, fun s h => by rw [beginScan_idle h]; rfl, by decide, rfl, rfl⟩
  intro s m hdis entry enabled
  have entry_eq (c : Channel) : entry s c = (startWalk s c m).walk := by cases m <;> rfl
  have enabled_eq (c : Channel) : enabled c = (s.display c).walkEnable s.config.bits m := by cases m <;> rfl
  rw [enabled_eq, enabled_eq, entry_eq, entry_eq]
  refine ⟨fun hp hm => ?_, fun hb => ?_, fun hb => ?_, rfl⟩
  · rw [beginScan_walk hdis hp hm, walkA_walk]
    exact ⟨fun ha => if_pos ha, fun ha hb => by rw [ha, hb]; rfl, fun ha hb => by rw [ha, hb]; rfl⟩
  · obtain ⟨-, e⟩ | ⟨hb', -⟩ := walkB_cases s m
    · exact e
    · rw [hb] at hb'
      cases hb'
  · obtain ⟨hb', -⟩ | ⟨-, e⟩ := walkB_cases s m
    · rw [hb] at hb'
      cases hb'
    · exact e

end Sys2Proof
end

section
/-!
SUPPORT. 20, 40 to 42: the CPU's accesses of planes, pages and bus addresses, and the effects of Timer0's registers and of the status
read.
-/
namespace Sys2Proof.Machine

/-! ## Lanes (20 R88) -/

theorem hasHigh_iff (m : Lanes) : m.hasHigh = true ↔ m ≠ .low := by
  cases m <;> decide

theorem hasLow_iff (m : Lanes) : m.hasLow = true ↔ m ≠ .high := by
  cases m <;> decide

/-! ## The display page (42 R190 to R196) -/

/-- The offset of index `k` of channel `c`'s block decodes to that channel and that index (R190). -/
theorem slotChannel_offset (c : Channel) :
    ∀ k : Fin 8, slotChannel (BitVec.ofNat 4 (k.val + match c with | .a => 8 | .b => 0)) = c := by
  cases c <;> decide

theorem slotIndex_offset (c : Channel) :
    ∀ k : Fin 8, (BitVec.ofNat 4 (k.val + match c with | .a => 8 | .b => 0)).toNat % 8 = k.val := by
  cases c <;> decide

theorem mcd212Read_slot {s : State} {o : BitVec 4} {r : SlotReg} (h : slotReg s.config o = some r) (hr : r ≠ .status)
    (m : Lanes) : mcd212Read s o m = returnHalf s ((s.display (slotChannel o)).readSlot r) := by
  cases r
  case status => exact absurd rfl hr
  all_goals simp only [mcd212Read, mcd212Value, h]

theorem mcd212Read_status {s : State} {o : BitVec 4} (h : slotReg s.config o = some .status) (m : Lanes) :
    mcd212Read s o m
      = if slotChannel o = .b ∧ m.hasLow = true
        then acknowledgeInterrupts (returnHalf s ((s.display (slotChannel o)).csrr.setWidth 16))
        else returnHalf s ((s.display (slotChannel o)).csrr.setWidth 16) := by
  simp only [mcd212Read, mcd212Value, h, DisplayChannel.readSlot]

theorem mcd212Read_empty {s : State} {o : BitVec 4} (h : slotReg s.config o = none) (m : Lanes) :
    mcd212Read s o m = logEvent (returnHalf s 0) .unimplementedRegister := by
  simp only [mcd212Read, mcd212Value, h]

theorem mcd212Write_slot {s : State} {o : BitVec 4} {r : SlotReg} (h : slotReg s.config o = some r) (m : Lanes) (d : Half) :
    mcd212Write s o m d = s.setDisplay (slotChannel o) ((s.display (slotChannel o)).writeSlot r m d) := by
  simp only [mcd212Write, h]

theorem mcd212Write_empty {s : State} {o : BitVec 4} (h : slotReg s.config o = none) (m : Lanes) (d : Half) :
    mcd212Write s o m d = s := by
  simp only [mcd212Write, h]

/-- A written display register reads back its lanes combined (R194, R195). -/
theorem readSlot_writeSlot_same (d : DisplayChannel) {r : SlotReg} (hr : r ≠ .status) (m : Lanes) (v : Half) :
    (d.writeSlot r m v).readSlot r = combine (d.readSlot r) v m := by
  cases r
  case status => exact absurd rfl hr
  all_goals rfl

theorem readSlot_writeSlot_other (d : DisplayChannel) {r q : SlotReg} (hq : q ≠ r) (m : Lanes) (v : Half) :
    (d.writeSlot r m v).readSlot q = d.readSlot q := by
  cases r <;> cases q
  case status.status | dcr.dcr | vsr.vsr | ddr.ddr | dcp.dcp => exact absurd rfl hq
  all_goals rfl

/-- A write of a slot but the status slot leaves the control register and what REGISTER SET writes alone. -/
theorem writeSlot_frame (d : DisplayChannel) {r : SlotReg} (hr : r ≠ .status) (m : Lanes) (v : Half) :
    (d.writeSlot r m v).csrw = d.csrw ∧ (d.writeSlot r m v).clut = d.clut
    ∧ (d.writeSlot r m v).clutBank = d.clutBank ∧ (d.writeSlot r m v).rc = d.rc := by
  cases r
  case status => exact absurd rfl hr
  all_goals exact ⟨rfl, rfl, rfl, rfl⟩

/-- A line after the status read's clearing: dropped if either LIR field names it (R192). -/
theorem acknowledgeInterrupts_port (s : State) (n : IrqLine) :
    (acknowledgeInterrupts s).irq[n]
      = if n.number = (lirSelector s.periph.lir .a).toNat ∨ n.number = (lirSelector s.periph.lir .b).toNat
        then ⟨false, (s.irq[n]).vector⟩ else s.irq[n] := by
  have ports : (acknowledgeInterrupts s).irq[n]
      = (deassertSelected (deassertSelected (clearInterruptBits s) (lirSelector s.periph.lir .a))
          (lirSelector s.periph.lir .b)).irq[n] := rfl
  rw [ports, deassertSelected_port, deassertSelected_port]
  by_cases hb : n.number = (lirSelector s.periph.lir .b).toNat
  · rw [if_pos hb, if_pos (Or.inr hb)]
    split <;> rfl
  · rw [if_neg hb]
    by_cases ha : n.number = (lirSelector s.periph.lir .a).toNat
    · rw [if_pos ha, if_pos (Or.inl ha)]
      rfl
    · rw [if_neg ha, if_neg (not_or.mpr ⟨ha, hb⟩)]
      rfl

/-! ## The peripheral page (40 R141 to R143) -/

theorem periphRead_listed {s : State} {w : Nat} {p : PeriphWord} (h : periphWord s.config w = some p) (m : Lanes) :
    periphRead s w m = returnHalf s (periphValue s w) := by
  simp only [periphRead, h]

theorem periphRead_empty {s : State} {w : Nat} (h : periphWord s.config w = none) (m : Lanes) :
    periphRead s w m = logEvent (returnHalf s 0) .unimplementedRegister := by
  simp only [periphRead, periphValue, h]

theorem periphWrite_empty {s : State} {w : Nat} (h : periphWord s.config w = none) (m : Lanes) (d : Half) :
    periphWrite s w m d = s := by
  simp only [periphWrite, h]

theorem periphWrite_bytes {s : State} {w : Nat} {high low : Option ByteReg}
    (h : periphWord s.config w = some (.bytes high low)) (m : Lanes) (d : Half) :
    periphWrite s w m d = writeLane (writeLane s m.hasLow low (lowByteOf d)) m.hasHigh high (highByte d) := by
  simp only [periphWrite, h]

theorem periphWrite_word {s : State} {w : Nat} {r : WordReg} (h : periphWord s.config w = some (.word r)) (m : Lanes)
    (d : Half) : periphWrite s w m d = writeWordReg s r m d := by
  simp only [periphWrite, h]

@[simp] theorem writeLane_unselected (s : State) (r : Option ByteReg) (v : Byte) : writeLane s false r v = s := by
  cases r <;> rfl

@[simp] theorem writeLane_none (s : State) (selected : Bool) (v : Byte) : writeLane s selected none v = s := rfl

/-- A write of one lane alone is the write of that lane's register. -/
theorem periphWrite_low {s : State} {w : Nat} {high low : Option ByteReg}
    (h : periphWord s.config w = some (.bytes high low)) (d : Half) :
    periphWrite s w .low d = writeLane s true low (lowByteOf d) := by
  rw [periphWrite_bytes h]
  exact writeLane_unselected _ _ _

theorem periphWrite_high {s : State} {w : Nat} {high low : Option ByteReg}
    (h : periphWord s.config w = some (.bytes high low)) (d : Half) :
    periphWrite s w .high d = writeLane s true high (highByte d) := by
  rw [periphWrite_bytes h]
  exact congrArg (writeLane · true high (highByte d)) (writeLane_unselected _ _ _)

theorem periphWrite_both {s : State} {w : Nat} {high low : Option ByteReg}
    (h : periphWord s.config w = some (.bytes high low)) (d : Half) :
    periphWrite s w .both d = writeLane (writeLane s true low (lowByteOf d)) true high (highByte d) :=
  periphWrite_bytes h .both d

@[simp] theorem writeLane_config (s : State) (selected : Bool) (r : Option ByteReg) (v : Byte) :
    (writeLane s selected r v).config = s.config := by
  rw [writeLane_frame]

/-- A lane of plain storage: its register takes the byte if the lane is selected, and nothing else changes (R142). -/
theorem writeLane_storage (s : State) (selected : Bool) (r : Option ByteReg) (v : Byte) (htsr : r ≠ some .tsr)
    (hthr : r ≠ some .uartThr) :
    writeLane s selected r v = { s with periph := (writeLane s selected r v).periph }
    ∧ (∀ q, (writeLane s selected r v).periph.readByte q
        = if r = some q ∧ selected = true then v else s.periph.readByte q)
    ∧ ∀ q, (writeLane s selected r v).periph.readWord q = s.periph.readWord q := by
  obtain ⟨hnone, e⟩ | ⟨-, h, -⟩ | ⟨-, h, -⟩ | ⟨p, hsel, hr, -, -, e⟩ := writeLane_cases s selected r v
  · rw [e]
    refine ⟨rfl, fun q => ?_, fun q => rfl⟩
    obtain h | h := hnone <;> simp [h]
  · exact absurd h hthr
  · exact absurd h htsr
  · rw [e, hr, hsel]
    refine ⟨rfl, fun q => ?_, fun q => readWord_storeByte _ _ _ _⟩
    rw [readByte_storeByte]
    simp [eq_comm]

/-- Both lanes of a word of plain storage (R142). -/
theorem periphWrite_storage {s : State} {w : Nat} {high low : Option ByteReg}
    (h : periphWord s.config w = some (.bytes high low)) (m : Lanes) (d : Half)
    (hplain : ∀ r ∈ [high, low], r ≠ some .tsr ∧ r ≠ some .uartThr) :
    periphWrite s w m d = { s with periph := (periphWrite s w m d).periph }
    ∧ (∀ q, (periphWrite s w m d).periph.readByte q
        = if high = some q ∧ m ≠ .low then highByte d
          else if low = some q ∧ m ≠ .high then lowByteOf d else s.periph.readByte q)
    ∧ ∀ q, (periphWrite s w m d).periph.readWord q = s.periph.readWord q := by
  obtain ⟨htsrH, hthrH⟩ := hplain high (by simp)
  obtain ⟨htsrL, hthrL⟩ := hplain low (by simp)
  obtain ⟨frameL, byteL, wordL⟩ := writeLane_storage s m.hasLow low (lowByteOf d) htsrL hthrL
  obtain ⟨frameH, byteH, wordH⟩ :=
    writeLane_storage (writeLane s m.hasLow low (lowByteOf d)) m.hasHigh high (highByte d) htsrH hthrH
  rw [periphWrite_bytes h]
  refine ⟨?_, fun q => ?_, fun q => (wordH q).trans (wordL q)⟩
  · rw [frameH, frameL]
  · rw [byteH, byteL]
    simp only [hasHigh_iff, hasLow_iff]

/-- A 16-bit register of plain storage (R142). -/
theorem periphWrite_wordStorage {s : State} {w : Nat} {r : WordReg} (h : periphWord s.config w = some (.word r))
    (hr : r ≠ .t0) (m : Lanes) (d : Half) :
    periphWrite s w m d = { s with periph := s.periph.storeWord r (combine (s.periph.readWord r) d m) } := by
  rw [periphWrite_word h]
  cases r
  case t0 => exact absurd rfl hr
  all_goals rfl

/-- A 24-bit counter is its high byte and its low word (R57). -/
theorem counter_eq (x : BitVec 24) : x = x.extractLsb' 16 8 ++ x.extractLsb' 0 16 := by
  have whole : (x.extractLsb' 16 8 ++ x.extractLsb' 0 16 : BitVec 24) = x.extractLsb' 0 24 :=
    BitVec.extractLsb'_append_extractLsb'_eq_extractLsb' (by decide)
  rw [whole]
  simp

/-- A lane holds one byte: read alone it is the low half of the word. -/
theorem zero_append_byte (v : Byte) : ((0 : Byte) ++ v : Half) = v.setWidth 16 := by
  apply BitVec.eq_of_toNat_eq
  have := v.isLt
  rw [BitVec.toNat_append, BitVec.toNat_setWidth, Nat.mod_eq_of_lt (by omega)]
  simp

/-! ### The transmit register (40 R146) -/

theorem writeLane_uartThr (s : State) (v : Byte) :
    writeLane s true (some .uartThr) v = { s with
      periph := { s.periph with uartThr := v }
      uartOut := if s.config.uartEcho = true then s.uartOut ++ [v] else s.uartOut } := by
  show writeUartThr s v = _
  rw [writeUartThr]
  show (if s.config.uartEcho = true then _ else _) = _
  split <;> rfl

/-! ## Timer0 (41 R171 to R175) -/

theorem picrSelector_toNat (p : Byte) : (picrSelector p).toNat = p.toNat % 8 := by
  simp [picrSelector, BitVec.extractLsb'_toNat]

theorem putField_overflow : ∀ b : Byte, putField b 7 (1 : BitVec 1) = b ||| 0x80 := by
  decide

theorem timer0Event_port (s : State) (n : IrqLine) :
    (timer0Event s).irq[n]
      = if n.number = s.periph.picr1.toNat % 8 then ⟨true, BitVec.ofNat 8 (56 + n.number)⟩ else s.irq[n] := by
  have event : (timer0Event s).irq[n]
      = (assertSelected { s with periph := { s.periph with t0 := s.periph.reload }.setOverflow }
          (picrSelector s.periph.picr1) 56).irq[n] := rfl
  rw [event, assertSelected_port, picrSelector_toNat]

/-- The Timer0 event but for its line (R173). -/
theorem timer0Event_eq (s : State) :
    timer0Event s = { s with
      periph := { s.periph with t0 := s.periph.reload, tsr := s.periph.tsr ||| 0x80 }
      irq := (timer0Event s).irq
      t0Armed := true
      t0Due := s.now + (0x10000 - s.periph.reload.toNat) * s.config.timerTick } := by
  rw [← putField_overflow, timer0Event]
  simp only
  rw [assertSelected_frame]
  rfl

/-- What a write of TSR does (R175). -/
theorem writeTimerStatus_effect (s : State) (ones : Byte) :
    writeTimerStatus s ones
      = { s with periph := { s.periph with tsr := s.periph.tsr &&& ~~~ones }, irq := (writeTimerStatus s ones).irq }
    ∧ ∀ n : IrqLine, (writeTimerStatus s ones).irq[n]
        = if s.periph.tsr &&& ~~~ones = 0 ∧ n.number = s.periph.picr1.toNat % 8
          then ⟨false, (s.irq[n]).vector⟩ else s.irq[n] := by
  refine ⟨writeTimerStatus_frame s ones, fun n => ?_⟩
  by_cases h : s.periph.tsr &&& ~~~ones = 0
  · have dropped : writeTimerStatus s ones
        = deassertSelected { s with periph := s.periph.clearStatus ones } (picrSelector s.periph.picr1) := if_pos h
    rw [dropped, deassertSelected_port, picrSelector_toNat]
    simp only [h, true_and]
  · have kept : writeTimerStatus s ones = { s with periph := s.periph.clearStatus ones } := if_neg h
    rw [kept, if_neg fun hn => h hn.1]

/-! ## Plane accesses (20 R83 to R85) -/

theorem planeRouted_iff (s : State) (w : Nat) (m : Lanes) :
    planeRouted s w m = true
      ↔ (m ≠ .low ∧ 2 * w < s.config.planeBytes ∨ m ≠ .high ∧ 2 * w + 1 < s.config.planeBytes) := by
  simp only [planeRouted, Bool.or_eq_true, Bool.and_eq_true, decide_eq_true_eq, hasHigh_iff, hasLow_iff]

@[simp] theorem storeInPlane_config (s : State) (c : Channel) (a : Nat) (b : Byte) :
    (storeInPlane s c a b).config = s.config := by
  rw [(storeInPlane_spec s c a b).1]
  rfl

/-- Every byte of both planes after a CPU write of a word: a selected lane's byte inside the plane, or as before. -/
theorem planeByte_planeWrite (s : State) (c e : Channel) (w : Nat) (m : Lanes) (d : Half) (a draw : Nat) :
    planeByte (planeWrite s c w m d) e a draw
      = if e = c ∧ a = 2 * w ∧ m ≠ .low ∧ a < s.config.planeBytes then highByte d
        else if e = c ∧ a = 2 * w + 1 ∧ m ≠ .high ∧ a < s.config.planeBytes then lowByteOf d
        else planeByte s e a draw := by
  have high (hm : m ≠ .low) : (e = c ∧ a = 2 * w ∧ m ≠ .low ∧ a < s.config.planeBytes)
      ↔ (e = c ∧ a = 2 * w ∧ a < s.config.planeBytes) := by simp [hm]
  have low (hm : m ≠ .high) : (e = c ∧ a = 2 * w + 1 ∧ m ≠ .high ∧ a < s.config.planeBytes)
      ↔ (e = c ∧ a = 2 * w + 1 ∧ a < s.config.planeBytes) := by simp [hm]
  cases m with
  | high =>
    simp only [high (by decide)]
    simpa [planeWrite, Lanes.hasHigh, Lanes.hasLow] using planeByte_storeInPlane s c e (2 * w) a draw (highByte d)
  | low =>
    simp only [low (by decide)]
    simpa [planeWrite, Lanes.hasHigh, Lanes.hasLow] using planeByte_storeInPlane s c e (2 * w + 1) a draw (lowByteOf d)
  | both =>
    simp only [high (by decide), low (by decide)]
    have two : planeWrite s c w .both d
        = storeInPlane (storeInPlane s c (2 * w) (highByte d)) c (2 * w + 1) (lowByteOf d) := rfl
    rw [two, planeByte_storeInPlane, planeByte_storeInPlane, storeInPlane_config]
    by_cases h : e = c ∧ a = 2 * w ∧ a < s.config.planeBytes
    · have h' : ¬ (e = c ∧ a = 2 * w + 1 ∧ a < s.config.planeBytes) := by omega
      rw [if_neg h', if_pos h, if_pos h]
    · rw [if_neg h, if_neg h]

theorem highByte_planeWord (s : State) (c : Channel) (w draw : Nat) :
    (planeWord s c w draw).extractLsb' 8 8 = planeByte s c (2 * w) draw :=
  BitVec.extractLsb'_append_eq_left

theorem lowByte_planeWord (s : State) (c : Channel) (w draw : Nat) :
    (planeWord s c w draw).extractLsb' 0 8 = planeByte s c (2 * w + 1) (draw + 1) :=
  BitVec.extractLsb'_append_eq_right

/-! ## Bus addresses (20 R96) -/

theorem inRegion_iff (c : Config) (address : Nat) (r : BusRegion) :
    inRegion c address r = true
      ↔ regionBase c r ≤ address ∧ address < regionBase c r + regionBytes c r ∧ (address - regionBase c r) % 2 = 0 := by
  simp only [inRegion, Bool.and_eq_true, decide_eq_true_eq, and_assoc]

/-- An address that one region alone holds is routed there. -/
theorem route_of_only {c : Config} {address w : Nat} {r : BusRegion} (hin : inRegion c address r = true)
    (honly : ∀ q, q ≠ r → inRegion c address q = false) (haddress : address = regionBase c r + 2 * w) :
    route c address = some (r, w) := by
  have regions : regionsAt c address = [r] := by
    have a := honly (.plane .a)
    have b := honly (.plane .b)
    have m := honly .mcd212
    have p := honly .periph
    rw [regionsAt]
    cases r with
    | plane e =>
      cases e
      · simp [hin, b (by decide), m (by decide), p (by decide)]
      · simp [hin, a (by decide), m (by decide), p (by decide)]
    | mcd212 => simp [hin, a (by decide), b (by decide), p (by decide)]
    | periph => simp [hin, a (by decide), b (by decide), m (by decide)]
  have word : (address - regionBase c r) / 2 = w := by omega
  rw [route, regions]
  simp only [word]

/-- An address that no region holds, or two, is routed nowhere. -/
theorem route_eq_none {c : Config} {address : Nat}
    (h : (∀ q, inRegion c address q = false)
      ∨ ∃ q r, q ≠ r ∧ inRegion c address q = true ∧ inRegion c address r = true) : route c address = none := by
  cases hroute : route c address with
  | none => rfl
  | some p =>
    obtain ⟨r, w⟩ := p
    obtain ⟨haddress, hinside, honly⟩ := route_some c address r w hroute
    obtain hnone | ⟨q, q', hne, hq, hq'⟩ := h
    · have hin : inRegion c address r = true := (inRegion_iff c address r).mpr ⟨by omega, by omega, by omega⟩
      rw [hnone r] at hin
      cases hin
    · exact absurd ((honly q hq).trans (honly q' hq').symm) hne

theorem busRead_of_route {s : State} {address w : Nat} {r : BusRegion} (h : route s.config address = some (r, w))
    (m : Lanes) : busRead s address m = readRegion s r w m := by
  rw [busRead, h]

theorem busWrite_of_route {s : State} {address w : Nat} {r : BusRegion} (h : route s.config address = some (r, w))
    (m : Lanes) (d : Half) : busWrite s address m d = writeRegion s r w m d := by
  rw [busWrite, h]

end Sys2Proof.Machine

namespace Sys2Proof

open Machine

/-! ## The obligations -/

/-- Settles O43: the slot the offset names, and its register after a write, lane by lane. -/
theorem displayRegistersReadAndWriteByLane : Obligations.DisplayRegistersReadAndWriteByLane := by
  intro s k r m d hlayout hk c o
  have hr : r ≠ .status := by
    rintro rfl
    simp at hk
  have channel : slotChannel o = c := slotChannel_offset c k
  have slot : slotReg s.config o = some r := by
    rw [slotReg, hlayout, show o.toNat % 8 = k.val from slotIndex_offset c k]
    obtain ⟨hk, rfl⟩ | ⟨hk, rfl⟩ | ⟨hk, rfl⟩ | ⟨hk, rfl⟩ := hk <;> rw [hk] <;> decide
  have write := mcd212Write_slot slot m d
  rw [channel] at write
  obtain ⟨hcsrw, hclut, hbank, hrc⟩ := writeSlot_frame (s.display c) hr m d
  refine ⟨?read, mcd212Write s o m d, rfl, ?_⟩
  case read =>
    show Host.Outcome.next (mcd212Read s o m) = _
    rw [mcd212Read_slot slot hr, channel]
    rfl
  rw [write, display_setDisplay_same]
  refine ⟨rfl, fun q hq => readSlot_writeSlot_other _ hq m d, hcsrw, hclut, hbank, hrc, fun i hi => ?_⟩
  rw [readSlot_writeSlot_same _ hr, getLsbD_combine _ _ _ i hi]
  simp only [hasHigh_iff, hasLow_iff]

/-- Settles O44: the two status slots, the clearing's frame, and its lines port by port. -/
theorem statusReadAcknowledgesInterrupts : Obligations.StatusReadAcknowledgesInterrupts := by
  intro s m hlayout
  have slotA : slotReg s.config 8 = some .status := by rw [slotReg, hlayout]; decide
  have slotB : slotReg s.config 0 = some .status := by rw [slotReg, hlayout]; decide
  have readA := mcd212Read_status slotA m
  have readB := mcd212Read_status slotB m
  rw [show slotChannel 8 = .a by decide] at readA
  rw [show slotChannel 0 = .b by decide] at readB
  refine ⟨?_, fun hm => ?_, fun hm => ⟨_, rfl, ?_, fun n => ?_⟩, fun d => ⟨?_, ?_⟩⟩
  · rw [readA, if_neg (by simp)]
    rfl
  · rw [readB, if_neg (by rw [hm]; decide)]
    rfl
  · rw [readB, if_pos ⟨rfl, (hasLow_iff m).mpr hm⟩, acknowledgeInterrupts_frame]
    rfl
  · rw [readB, if_pos ⟨rfl, (hasLow_iff m).mpr hm⟩, acknowledgeInterrupts_port]
    rfl
  · rw [mcd212Write_slot slotA, show slotChannel 8 = .a by decide]
    rfl
  · rw [mcd212Write_slot slotB, show slotChannel 0 = .b by decide]
    rfl

/-- Settles O45: an empty slot and an unlisted offset, read and written. -/
theorem unimplementedRegistersReadZero : Obligations.UnimplementedRegistersReadZero := by
  refine ⟨fun s o m d hlayout ho => ?_, fun s w m d hlookup => ?_, by decide⟩
  · have slot : slotReg s.config o = none := by
      rw [slotReg, hlayout]
      obtain h | h | h := ho <;> rw [h] <;> decide
    exact ⟨congrArg Host.Outcome.next (mcd212Read_empty slot m), congrArg Host.Outcome.next (mcd212Write_empty slot m d)⟩
  · exact ⟨congrArg Host.Outcome.next (periphRead_empty hlookup m),
      congrArg Host.Outcome.next (periphWrite_empty hlookup m d)⟩

/-- Settles O46: words of two lanes, words of one register, and the DMA counters. -/
theorem peripheralStorageIsByRegister : Obligations.PeripheralStorageIsByRegister := by
  refine ⟨?bytes, fun s w m d r hlookup => ?word, fun p j => ⟨counter_eq _, counter_eq _⟩⟩
  case bytes =>
    intro s w m d high low hlookup value
    have listed : periphWord s.config w = some (.bytes high low) := hlookup
    refine ⟨?read, fun hplain => ⟨_, rfl, periphWrite_storage listed m d hplain⟩, _, rfl, ?both⟩
    case read =>
      show Host.Outcome.next (periphRead s w m) = _
      rw [periphRead_listed listed, periphValue, listed]
      rfl
    case both =>
      have listed' : periphWord (periphWrite s w .low d).config w = some (.bytes high low) := by
        rw [periphWrite_low listed, writeLane_config]
        exact listed
      show Host.Outcome.next (periphWrite s w .both d) = .next (periphWrite (periphWrite s w .low d) w .high d)
      rw [periphWrite_high listed', periphWrite_low listed, periphWrite_both listed]
  case word =>
    have listed : periphWord s.config w = some (.word r) := hlookup
    refine ⟨?_, fun hr => ⟨_, rfl, ?_⟩⟩
    · show Host.Outcome.next (periphRead s w m) = _
      rw [periphRead_listed listed, periphValue, listed]
      rfl
    · rw [periphWrite_wordStorage listed hr]
      exact ⟨rfl, fun p => readWord_storeWord _ _ _ _, fun q => readByte_storeWord _ _ _ _⟩

/-- Settles O47: the writes in the default layout lane by lane, the transmit register in any, and the layout looked up word by
word. -/
theorem selectorAndEchoRegistersByLane : Obligations.SelectorAndEchoRegistersByLane := by
  have lowRegister {s : State} {w : Nat} {r : ByteReg} (h : s.config.periphLayout.lookup (2 * w) = some (.bytes none (some r)))
      (m : Lanes) (d : Half) :
      runExternal s (.periphWrite w m d) = .next (if m = .high then s else writeLane s true (some r) (lowByteOf d)) := by
    show Host.Outcome.next (periphWrite s w m d) = _
    rw [periphWrite_bytes h]
    cases m <;> rfl
  refine ⟨fun s m d hlayout => ?_, fun s w d high low hlookup => ?_, by decide, by decide, by decide, by decide, by decide,
    by decide⟩
  · have row {a : Nat} {p : PeriphWord} (h : defaultPeriphLayout.lookup a = some p) : s.config.periphLayout.lookup a = some p := by
      rw [hlayout]
      exact h
    have lir := row (show defaultPeriphLayout.lookup (2 * (0x1000 / 2)) = some (.bytes none (some .lir)) by decide)
    have picr1 := row (show defaultPeriphLayout.lookup (2 * (0x2044 / 2)) = some (.bytes none (some .picr1)) by decide)
    have thr := row (show defaultPeriphLayout.lookup (2 * (0x2018 / 2)) = some (.bytes none (some .uartThr)) by decide)
    refine ⟨lowRegister lir m d, lowRegister picr1 m d, ?_, ?_⟩
    · show Host.Outcome.next (periphRead s (0x1000 / 2) m) = _
      have listed : periphWord s.config (0x1000 / 2) = some (.bytes none (some .lir)) := lir
      rw [periphRead_listed listed, periphValue, listed, ← zero_append_byte]
      rfl
    · rw [lowRegister thr, writeLane_uartThr]
      rfl
  · have listed : periphWord s.config w = some (.bytes high low) := hlookup
    refine ⟨fun h => ?_, fun h => ?_, fun h => ?_, fun h => ?_⟩
    · subst h
      exact congrArg Host.Outcome.next ((periphWrite_low listed d).trans (writeLane_uartThr s _))
    · subst h
      exact congrArg Host.Outcome.next ((periphWrite_high listed d).trans (writeLane_uartThr s _))
    · subst h
      exact congrArg Host.Outcome.next (periphWrite_low listed d)
    · subst h
      exact congrArg Host.Outcome.next (periphWrite_high listed d)

/-- Settles O48: the write of timer0 is its own operation at any offset. -/
theorem timerWriteArms : Obligations.TimerWriteArms := by
  refine ⟨fun s w m d hlookup => ⟨_, rfl, ?_⟩, by decide⟩
  exact congrArg Host.Outcome.next (periphWrite_word hlookup m d)

/-- Settles O49: the event's frame and its lines port by port. -/
theorem timerEventReloadsAndAsserts : Obligations.TimerEventReloadsAndAsserts := by
  intro s
  exact ⟨timer0Event s, rfl, timer0Event_eq s, timer0Event_port s⟩

/-- Settles O50: what a write of TSR does, in the word it shares with TCR and in any lane. -/
theorem timerStatusIsWriteOneToClear : Obligations.TimerStatusIsWriteOneToClear := by
  refine ⟨fun s w m d hlookup => ?sharedWord, ?anyLane, by decide⟩
  case sharedWord =>
    have listed : periphWord s.config w = some (.bytes (some .tsr) (some .tcr)) := hlookup
    obtain ⟨frame, port⟩ := writeTimerStatus_effect (writeLane s m.hasLow (some .tcr) (lowByteOf d)) (highByte d)
    cases m with
    | low =>
      refine ⟨_, congrArg Host.Outcome.next (periphWrite_low listed d), rfl, fun n => ?_⟩
      rw [if_neg (by simp)]
      rfl
    | high =>
      refine ⟨_, congrArg Host.Outcome.next (periphWrite_high listed d), frame, fun n => ?_⟩
      simp only [ne_eq, reduceCtorEq, not_false_eq_true, true_and]
      exact port n
    | both =>
      refine ⟨_, congrArg Host.Outcome.next (periphWrite_both listed d), frame, fun n => ?_⟩
      simp only [ne_eq, reduceCtorEq, not_false_eq_true, true_and]
      exact port n
  case anyLane =>
    intro s w m d high low hlookup hlane ones
    have listed : periphWord s.config w = some (.bytes high low) := hlookup
    obtain ⟨rfl, rfl⟩ | ⟨rfl, rfl⟩ := hlane
    · exact ⟨_, congrArg Host.Outcome.next (periphWrite_high listed d), writeTimerStatus_effect s ones⟩
    · exact ⟨_, congrArg Host.Outcome.next (periphWrite_low listed d), writeTimerStatus_effect s ones⟩

/-- Settles O52: a plane access by lane, and a bus address by the region that holds it. -/
theorem planeAccessesAreByteLanes : Obligations.PlaneAccessesAreByteLanes := by
  intro s c w m d
  refine ⟨fun h => ?write, fun h => ?writeRefused, fun h => ?read, fun h => ?readRefused,
    fun r address hin honly haddress => ?routed, fun address h => ?notRouted⟩
  case write =>
    refine ⟨planeWrite s c w m d, ?_, (planeWrite_spec s c w m d).1, fun e a draw => planeByte_planeWrite s c e w m d a draw⟩
    exact if_pos ((planeRouted_iff s w m).mpr h)
  case writeRefused => exact if_neg (mt (planeRouted_iff s w m).mp h)
  case read =>
    obtain ⟨-, e⟩ | ⟨h', -⟩ := readPlane_cases s c w
    · refine ⟨planeWord s c w s.freeCount, e, ?_, lowByte_planeWord s c w s.freeCount⟩
      rw [highByte_planeWord, planeByte, if_pos h]
    · omega
  case readRefused =>
    obtain ⟨h', -⟩ | ⟨-, e⟩ := readPlane_cases s c w
    · omega
    · exact e
  case routed =>
    have hroute := route_of_only hin honly haddress
    refine ⟨(busRead_of_route hroute m).trans ?_, (busWrite_of_route hroute m d).trans ?_⟩ <;> cases r <;> rfl
  case notRouted =>
    have hroute := route_eq_none h
    exact ⟨by rw [runExternal, busRead, hroute], by rw [runExternal, busWrite, hroute]⟩

end Sys2Proof
end

section
/-!
SUPPORT. 60, 70 agents: what a step of each agent can change (R85, R281, R356), whose turn it is (R356, R357), and what reset leaves
(R70).
-/
namespace Sys2Proof.Machine

/-! ## A step inside a walk (43 R210, 20 R85) -/

/-- A command writes the registers of the channels, the single ones, the lines, the walker's registers and the log; what follows it
can write the line number and the time of the next scan event as well. -/
theorem step_walk_frame {s t : State} (hrun : s.walk.running = true) (h : step s = .next t) :
    t = { s with
      chA := t.chA, chB := t.chB, regs := t.regs, irq := t.irq, walk := t.walk, log := t.log
      line := t.line, scanDue := t.scanDue, freeCount := s.freeCount + 4 } := by
  obtain ⟨u, hu, hcases⟩ := step_walk_cases hrun
  have command := exec_frame _ _ _ hu
  obtain ⟨-, e⟩ | ⟨-, e⟩ | ⟨-, -, e⟩ := hcases <;> obtain rfl := Host.Outcome.next.inj (e.symm.trans h)
  · rw [command]
    rfl
  · rw [endWalk_frame u, command]
    rfl
  · rw [endWalk_frame u, command]
    rfl

/-! ## The block's own events (47 R321, 41 R173) -/

/-- The scan event's own work writes the channels' registers, the output, the walker's registers, the line number, the time of the
next scan event, the log and the count of draws. -/
theorem beginScan_frame (s : State) :
    beginScan s = { s with
      chA := (beginScan s).chA, chB := (beginScan s).chB, videoOut := (beginScan s).videoOut, walk := (beginScan s).walk
      line := (beginScan s).line, scanDue := (beginScan s).scanDue, log := (beginScan s).log
      freeCount := (beginScan s).freeCount } := by
  obtain hidle | ⟨hp, hline⟩ | ⟨hp, hline⟩ := line_cases s
  · rw [beginScan_idle hidle]
    rfl
  · obtain ⟨x, w, n, due, e⟩ := beginScan_lineZero_frame hp hline
    rw [e]
  · obtain ⟨x, w, n, due, e⟩ := beginScan_active_frame hp hline
    rw [e, renderLine_eq]

/-- The channels' registers after the scan event's own work: status, VSR and DCR can differ (46 R296, 47 R322). -/
theorem beginScan_channels (s : State) (c : Channel) :
    (beginScan s).display c = { s.display c with
      csrr := ((beginScan s).display c).csrr, vsr := ((beginScan s).display c).vsr, dcr := ((beginScan s).display c).dcr } := by
  obtain hidle | ⟨hp, hline⟩ | ⟨hp, hline⟩ := line_cases s
  · rw [beginScan_idle hidle]
    cases c <;> rfl
  · obtain ⟨x, w, n, due, e⟩ := beginScan_lineZero_frame hp hline
    rw [e]
    cases c <;> rfl
  · obtain ⟨x, w, n, due, e⟩ := beginScan_active_frame hp hline
    rw [e, renderLine_frame]
    cases c <;> rfl

/-! ## What a CPU access or a reset can do (20 R85, R96, 40, 42, 70 R380) -/

/-- A write of the peripheral page writes the block, the lines, the UART output and Timer0's schedule. -/
theorem periphWrite_frame (s : State) (w : Nat) (m : Lanes) (d : Half) :
    periphWrite s w m d = { s with
      periph := (periphWrite s w m d).periph, irq := (periphWrite s w m d).irq, uartOut := (periphWrite s w m d).uartOut
      t0Armed := (periphWrite s w m d).t0Armed, t0Due := (periphWrite s w m d).t0Due } := by
  cases h : periphWord s.config w with
  | none => rw [periphWrite_empty h]
  | some p =>
    cases p with
    | bytes high low =>
      rw [periphWrite_bytes h, writeLane_frame (writeLane _ _ _ _), writeLane_frame s]
    | word r =>
      by_cases hr : r = .t0
      · subst hr
        rw [periphWrite_word h]
        rfl
      · rw [periphWrite_wordStorage h hr]

/-- What an external event can make of the state. -/
inductive ExternalEffect (s : State) (e : External) : State → Prop where
  /-- A read without a side effect returns a value; it can be logged and draw free values. -/
  | read (v : Half) (l : List LogEvent) (k : Nat) :
      ExternalEffect s e { s with busOut := s.busOut ++ [v], log := l, freeCount := k }
  /-- The read of channel 1's status (R192). -/
  | acknowledge (v : Half) : ExternalEffect s e (acknowledgeInterrupts (returnHalf s v))
  /-- A write that the page drops (R196). -/
  | dropped : ExternalEffect s e s
  | writePlane (h : writesPlane s.config e = true) (c : Channel) (w : Nat) (m : Lanes) (d : Half) :
      ExternalEffect s e (planeWrite s c w m d)
  | writeDisplay (c : Channel) (r : SlotReg) (m : Lanes) (d : Half) :
      ExternalEffect s e (s.setDisplay c ((s.display c).writeSlot r m d))
  | writePeriph (w : Nat) (m : Lanes) (d : Half) : ExternalEffect s e (periphWrite s w m d)
  | reset (h : e = .machineReset) : ExternalEffect s e (machineReset s)

theorem readPlane_effect {s t : State} {e : External} {c : Channel} {w : Nat} (h : readPlane s c w = .next t) :
    ExternalEffect s e t := by
  obtain ⟨-, hr⟩ | ⟨-, hr⟩ := readPlane_cases s c w <;> rw [hr] at h <;> cases h
  exact .read _ _ _

theorem writePlane_effect {s t : State} {e : External} (he : writesPlane s.config e = true) {c : Channel} {w : Nat}
    {m : Lanes} {d : Half} (h : writePlane s c w m d = .next t) : ExternalEffect s e t := by
  obtain ⟨-, hr⟩ | ⟨-, hr⟩ := writePlane_cases s c w m d <;> rw [hr] at h <;> cases h
  exact .writePlane he c w m d

theorem mcd212Read_effect (s : State) (e : External) (o : BitVec 4) (m : Lanes) : ExternalEffect s e (mcd212Read s o m) := by
  cases h : slotReg s.config o with
  | none =>
    rw [mcd212Read_empty h]
    exact .read 0 _ _
  | some r =>
    by_cases hr : r = .status
    · subst hr
      rw [mcd212Read_status h]
      split
      · exact .acknowledge _
      · exact .read _ _ _
    · rw [mcd212Read_slot h hr]
      exact .read _ _ _

theorem mcd212Write_effect (s : State) (e : External) (o : BitVec 4) (m : Lanes) (d : Half) :
    ExternalEffect s e (mcd212Write s o m d) := by
  cases h : slotReg s.config o with
  | none =>
    rw [mcd212Write_empty h]
    exact .dropped
  | some r =>
    rw [mcd212Write_slot h]
    exact .writeDisplay _ r m d

theorem periphRead_effect (s : State) (e : External) (w : Nat) (m : Lanes) : ExternalEffect s e (periphRead s w m) := by
  cases h : periphWord s.config w with
  | none =>
    rw [periphRead_empty h]
    exact .read 0 _ _
  | some p =>
    rw [periphRead_listed h]
    exact .read _ _ _

/-- A CPU access by bus address does what the access of the region does (R96). -/
theorem runExternal_effect {s t : State} {e : External} (h : runExternal s e = .next t) : ExternalEffect s e t := by
  cases e with
  | planeRead c w => exact readPlane_effect h
  | planeWrite c w m d => exact writePlane_effect rfl h
  | mcd212Read o m =>
    cases h
    exact mcd212Read_effect s _ o m
  | mcd212Write o m d =>
    cases h
    exact mcd212Write_effect s _ o m d
  | periphRead w m =>
    cases h
    exact periphRead_effect s _ w m
  | periphWrite w m d =>
    cases h
    exact .writePeriph w m d
  | machineReset =>
    cases h
    exact .reset rfl
  | busRead a m =>
    change busRead s a m = .next t at h
    cases hroute : route s.config a with
    | none =>
      rw [busRead, hroute] at h
      cases h
    | some p =>
      obtain ⟨r, w⟩ := p
      rw [busRead_of_route hroute] at h
      cases r with
      | plane c => exact readPlane_effect h
      | mcd212 =>
        cases h
        exact mcd212Read_effect s _ _ m
      | periph =>
        cases h
        exact periphRead_effect s _ w m
  | busWrite a m d =>
    change busWrite s a m d = .next t at h
    cases hroute : route s.config a with
    | none =>
      rw [busWrite, hroute] at h
      cases h
    | some p =>
      obtain ⟨r, w⟩ := p
      rw [busWrite_of_route hroute] at h
      cases r with
      | plane c => exact writePlane_effect (by simp only [writesPlane, hroute]) h
      | mcd212 =>
        cases h
        exact mcd212Write_effect s _ _ m d
      | periph =>
        cases h
        exact .writePeriph w m d

/-! ## Every step (00 R12) -/

/-- A step is a command inside a walk; or, between walks, an external event whose turn it is, Timer0's event or the scan event. -/
theorem step_cases {s t : State} (h : step s = .next t) :
    (s.walk.running = true)
    ∨ (s.walk.running = false ∧ ∃ x rest, s.agenda = x :: rest ∧ externalFirst s x = true
        ∧ ExternalEffect { s with now := max s.now x.due, agenda := rest } x.event t)
    ∨ (s.walk.running = false ∧ timer0First s = true ∧ t = fireTimer0 s)
    ∨ (s.walk.running = false ∧ timer0First s = false ∧ t = fireScan s) := by
  cases hrun : s.walk.running with
  | true => exact .inl rfl
  | false =>
    rw [step_idle s hrun] at h
    obtain ⟨x, rest, hagenda, hfirst, e⟩ | ⟨-, e⟩ := agentStep_cases s <;> rw [e] at h
    · exact .inr (.inl ⟨rfl, x, rest, hagenda, hfirst, runExternal_effect h⟩)
    · obtain ⟨hfirst, e'⟩ | ⟨hfirst, e'⟩ := runEvent_cases s <;> rw [e'] at h <;> cases h
      · exact .inr (.inr (.inl ⟨rfl, hfirst, rfl⟩))
      · exact .inr (.inr (.inr ⟨rfl, hfirst, rfl⟩))

theorem fireTimer0_frame (s : State) :
    fireTimer0 s = { s with
      now := (fireTimer0 s).now, periph := (fireTimer0 s).periph, irq := (fireTimer0 s).irq
      t0Armed := (fireTimer0 s).t0Armed, t0Due := (fireTimer0 s).t0Due, freeCount := (fireTimer0 s).freeCount } := by
  rw [fireTimer0, timer0Event_frame]
  rfl

/-- Parameters stay under an external event (00 R8). -/
theorem ExternalEffect.config {s t : State} {e : External} (h : ExternalEffect s e t) : t.config = s.config := by
  cases h with
  | read | dropped | writeDisplay | reset => rfl
  | acknowledge v => rw [acknowledgeInterrupts_frame]; rfl
  | writePlane _ c w m d => rw [(planeWrite_spec s c w m d).1]; rfl
  | writePeriph w m d => rw [periphWrite_frame]

/-- Planes stay under an external event but a plane write and a reset (20 R85). -/
theorem ExternalEffect.planes {s t : State} {e : External} (h : ExternalEffect s e t) (hw : writesPlane s.config e = false)
    (hr : e ≠ .machineReset) : t.planeA = s.planeA ∧ t.planeB = s.planeB ∧ t.epoch = s.epoch := by
  cases h with
  | read | dropped | writeDisplay => exact ⟨rfl, rfl, rfl⟩
  | acknowledge v => rw [acknowledgeInterrupts_frame]; exact ⟨rfl, rfl, rfl⟩
  | writePlane hw' =>
    rw [hw] at hw'
    cases hw'
  | writePeriph w m d => rw [periphWrite_frame]; exact ⟨rfl, rfl, rfl⟩
  | reset he => exact absurd he hr

/-- What REGISTER SET alone writes is the same in two states: the single registers, and of each channel the CLUT, its bank and the
region control (10 R21, 45 R281). -/
def SameRegisterSet (s t : State) : Prop :=
  t.regs = s.regs ∧ ∀ c, (t.display c).clut = (s.display c).clut ∧ (t.display c).clutBank = (s.display c).clutBank
    ∧ (t.display c).rc = (s.display c).rc

theorem SameRegisterSet.trans {s t u : State} (h : SameRegisterSet s t) (k : SameRegisterSet t u) : SameRegisterSet s u := by
  refine ⟨k.1.trans h.1, fun c => ?_⟩
  obtain ⟨hclut, hbank, hrc⟩ := h.2 c
  obtain ⟨kclut, kbank, krc⟩ := k.2 c
  exact ⟨kclut.trans hclut, kbank.trans hbank, krc.trans hrc⟩

theorem SameRegisterSet.of_same {s t : State} (hregs : t.regs = s.regs) (hA : t.chA = s.chA) (hB : t.chB = s.chB) :
    SameRegisterSet s t := by
  refine ⟨hregs, fun c => ?_⟩
  cases c
  · simp only [display_a, hA, and_self]
  · simp only [display_b, hB, and_self]

theorem sameRegisterSet_setDisplay (s : State) (c : Channel) (d : DisplayChannel) (hclut : d.clut = (s.display c).clut)
    (hbank : d.clutBank = (s.display c).clutBank) (hrc : d.rc = (s.display c).rc) : SameRegisterSet s (s.setDisplay c d) := by
  refine ⟨rfl, fun e => ?_⟩
  by_cases he : e = c
  · subst he
    rw [display_setDisplay_same]
    exact ⟨hclut, hbank, hrc⟩
  · rw [display_setDisplay_other s c e d he]
    exact ⟨rfl, rfl, rfl⟩

/-- No external event but a reset writes them. -/
theorem ExternalEffect.sameRegisterSet {s t : State} {e : External} (h : ExternalEffect s e t) (hr : e ≠ .machineReset) :
    SameRegisterSet s t := by
  cases h with
  | read | dropped => exact .of_same rfl rfl rfl
  | acknowledge v =>
    rw [acknowledgeInterrupts_frame]
    refine ⟨rfl, fun c => ?_⟩
    cases c <;> exact ⟨rfl, rfl, rfl⟩
  | writePlane _ c w m d =>
    rw [(planeWrite_spec s c w m d).1]
    exact .of_same rfl rfl rfl
  | writeDisplay c r m d => cases r <;> exact sameRegisterSet_setDisplay s c _ rfl rfl rfl
  | writePeriph w m d =>
    rw [periphWrite_frame]
    exact .of_same rfl rfl rfl
  | reset he => exact absurd he hr

/-- Nor does a command outside REGISTER SET, nor the end of the walk it can bring. -/
theorem step_walk_sameRegisterSet {s t : State} (hrun : s.walk.running = true) (h : step s = .next t)
    (hnext : isRegisterSet (nextCommand s) = false) : SameRegisterSet s t := by
  obtain ⟨u, hu, hcases⟩ := step_walk_cases hrun
  have command : SameRegisterSet s u := by
    obtain ⟨-, rfl⟩ | effect := exec_cases hu
    · rw [raiseInterrupt_frame, raiseInterrupt_chB]
      refine ⟨rfl, fun c => ?_⟩
      cases c <;> exact ⟨rfl, rfl, rfl⟩
    · refine ⟨effect.single hnext, fun c => ?_⟩
      by_cases hc : c = (advance s).chan
      · rw [hc]
        exact effect.own.registerSet hnext
      · rw [effect.other c hc]
        cases c <;> exact ⟨rfl, rfl, rfl⟩
  have ending : SameRegisterSet u (endWalk u) := by
    obtain ⟨-, -, e⟩ | ⟨-, e⟩ := endWalk_cases u <;> rw [e]
    · have own := sameRegisterSet_setDisplay u u.chan ((u.display u.chan).setDcp u.config.bits (2 * u.walk.ip)) rfl rfl rfl
      exact own.trans (.of_same rfl rfl rfl)
    · exact .of_same rfl rfl rfl
  obtain ⟨-, e⟩ | ⟨-, e⟩ | ⟨-, -, e⟩ := hcases <;> obtain rfl := Host.Outcome.next.inj (e.symm.trans h)
  · exact command
  · exact (command.trans ending).trans (.of_same rfl rfl rfl)
  · exact (command.trans ending).trans (.of_same rfl rfl rfl)

/-! ## Whose turn it is (60 R356, R357) -/

theorem externalFirst_iff (s : State) (x : Scheduled) :
    externalFirst s x = true ↔ max s.now x.due < s.scanDue ∧ (s.t0Armed = true → max s.now x.due < s.t0Due) := by
  rw [externalFirst, nextEventDue, decide_eq_true_eq]
  cases h : s.t0Armed
  · simp
  · simp only [if_true, forall_const, lt_min_iff]
    exact and_comm

theorem step_external {s : State} (hrun : s.walk.running = false) {x : Scheduled} {rest : List Scheduled}
    (hagenda : s.agenda = x :: rest) (hfirst : externalFirst s x = true) :
    step s = runExternal { s with now := max s.now x.due, agenda := rest } x.event := by
  rw [step_idle s hrun, agentStep, hagenda]
  exact if_pos hfirst

/-- Where every external event is scheduled at or after some time by which an event of the block is due, that goes first. -/
theorem step_event {s : State} (hrun : s.walk.running = false) (due : Nat)
    (hwait : ∀ x rest, s.agenda = x :: rest → due ≤ max s.now x.due)
    (hdue : s.scanDue ≤ due ∨ (s.t0Armed = true ∧ s.t0Due ≤ due)) : step s = .next (runEvent s) := by
  rw [step_idle s hrun]
  obtain ⟨x, rest, hagenda, hfirst, -⟩ | ⟨-, e⟩ := agentStep_cases s
  · obtain ⟨hscan, htimer⟩ := (externalFirst_iff s x).mp hfirst
    have := hwait x rest hagenda
    obtain h | ⟨harmed, h⟩ := hdue
    · omega
    · have := htimer harmed
      omega
  · exact e

theorem fireTimer0_of_due {s : State} (h : s.now ≤ s.t0Due) :
    fireTimer0 s = timer0Event { s with now := s.t0Due, freeCount := s.freeCount + 1 } := by
  rw [fireTimer0, max_eq_right h]
  rfl

theorem fireScan_of_due {s : State} (h : s.now ≤ s.scanDue) :
    fireScan s = beginScan { s with now := s.scanDue, freeCount := s.freeCount + 1 } := by
  rw [fireScan, max_eq_right h]
  rfl

/-! ## Reset (10 R70, 70 R380) -/

theorem readByte_reset (r : ByteReg) : Peripherals.reset.readByte r = 0 := by
  cases r
  case dmaStatus j | dmaError j | dmaDeviceControl j | dmaOperationControl j | dmaSequenceControl j | dmaChannelControl j
      | dmaMemoryHigh j | dmaDeviceHigh j =>
    simp [Peripherals.readByte, Peripherals.reset, DmaBlock.reset]
  case mmuSegmentNumber i => simp [Peripherals.readByte, Peripherals.reset, MmuDescriptor.reset]
  all_goals rfl

theorem readWord_reset (r : WordReg) : Peripherals.reset.readWord r = 0 := by
  cases r
  case dmaTransferCounter j | dmaMemoryLow j | dmaDeviceLow j =>
    simp [Peripherals.readWord, Peripherals.reset, DmaBlock.reset]
  case mmuAttr i | mmuLength i | mmuBase i => simp [Peripherals.readWord, Peripherals.reset, MmuDescriptor.reset]
  all_goals rfl

theorem irq_resetAt (config : Config) (epoch now freeCount : Nat) (agenda : List Scheduled) :
    ∀ n : IrqLine, ((State.resetAt config epoch now freeCount agenda).irq[n]).level = false := by
  intro n
  fin_cases n <;> rfl

end Sys2Proof.Machine

namespace Sys2Proof

open Machine

/-! ## The obligations -/

/-- Settles O25, agent by agent. -/
theorem onlyCommandsWriteRegisterSetRegisters : Obligations.OnlyCommandsWriteRegisterSetRegisters := by
  intro s t h hcommand hreset
  show SameRegisterSet s t
  obtain hrun | ⟨hrun, x, rest, hagenda, hfirst, effect⟩ | ⟨-, -, rfl⟩ | ⟨-, -, rfl⟩ := step_cases h
  · exact step_walk_sameRegisterSet hrun h (hcommand hrun)
  · have moved : SameRegisterSet s { s with now := max s.now x.due, agenda := rest } := .of_same rfl rfl rfl
    exact moved.trans (effect.sameRegisterSet (hreset hrun x rest hagenda hfirst))
  · rw [fireTimer0_frame]
    exact .of_same rfl rfl rfl
  · refine ⟨by rw [fireScan, beginScan_frame]; rfl, fun c => ?_⟩
    rw [fireScan, beginScan_channels]
    cases c <;> exact ⟨rfl, rfl, rfl⟩

/-- Settles O53: the frame of a step inside a walk. -/
theorem noOtherAgentMovesInsideAWalk : Obligations.NoOtherAgentMovesInsideAWalk := by
  intro s hrun
  obtain ⟨u, hu⟩ := exec_hasNext (nextCommand s) (advance s)
  have h := step_of_exec hrun hu
  refine ⟨_, h, ?_⟩
  rw [step_walk_frame hrun h]
  exact ⟨rfl, rfl, rfl, rfl, rfl, rfl, rfl, rfl, rfl, planeByte_congr s _ rfl rfl rfl rfl⟩

/-- Settles O54, order by order of the due times. -/
theorem agentsMoveInTheOrderOfTheirTimes : Obligations.AgentsMoveInTheOrderOfTheirTimes := by
  intro s hrun hpending
  obtain ⟨hscan, htimer⟩ := hpending
  refine ⟨fun x rest hagenda hs ht => ?external, fun hwait hs => ?scan, fun hwait harmed ht => ?timer,
    fun hwait harmed heq => ?tie⟩
  case external => exact step_external hrun hagenda ((externalFirst_iff s x).mpr ⟨hs, ht⟩)
  case scan =>
    rw [step_event hrun s.scanDue hwait (.inl (le_refl _)), ← fireScan_of_due hscan]
    obtain ⟨hfirst, -⟩ | ⟨-, e⟩ := runEvent_cases s
    · simp only [timer0First, Bool.and_eq_true, Bool.or_eq_true, decide_eq_true_eq] at hfirst
      have := hs hfirst.1
      omega
    · rw [e]
  case timer =>
    rw [step_event hrun s.t0Due hwait (.inr ⟨harmed, le_refl _⟩), ← fireTimer0_of_due (htimer harmed)]
    obtain ⟨-, e⟩ | ⟨hfirst, -⟩ := runEvent_cases s
    · rw [e]
    · simp [timer0First, harmed, ht] at hfirst
  case tie =>
    rw [step_event hrun s.t0Due hwait (.inr ⟨harmed, le_refl _⟩), ← fireTimer0_of_due (htimer harmed),
      ← fireScan_of_due hscan]
    obtain ⟨-, e⟩ | ⟨-, e⟩ := runEvent_cases s
    · exact .inl (by rw [e])
    · exact .inr (by rw [e])

/-- Settles O55, register by register; a machine reset differs from it in what it keeps only. -/
theorem resetLeavesTheStatedValues : Obligations.ResetLeavesTheStatedValues := by
  refine ⟨readByte_reset, readWord_reset, fun c r => by cases c <;> cases r <;> rfl, fun c => ?own, ⟨rfl, fun k => ?pattern⟩,
    rfl, rfl, irq_resetAt _ _ _ _ _, rfl, rfl, rfl, fun c a => by cases c <;> rfl, fun c a => by cases c <;> rfl, fun s => ?machine⟩
  case own => cases c <;> exact ⟨rfl, rfl, fun k => by simp [State.reset, State.resetAt, DisplayChannel.reset]⟩
  case pattern => simp [State.reset, State.resetAt, DisplayRegs.reset]
  case machine => exact ⟨_, rfl, rfl, rfl, rfl, Nat.le_add_right _ _, rfl, rfl, irq_resetAt _ _ _ _ _⟩

/-- Settles O58, agent by agent. -/
theorem noStepChangesTheConfiguration : Obligations.NoStepChangesTheConfiguration := by
  intro s t h
  obtain hrun | ⟨-, x, rest, -, -, effect⟩ | ⟨-, -, rfl⟩ | ⟨-, -, rfl⟩ := step_cases h
  · rw [step_walk_frame hrun h]
  · exact effect.config
  · rw [fireTimer0_frame]
  · rw [fireScan, beginScan_frame]
    rfl

/-- Settles O59, agent by agent. -/
theorem onlyTheCpuWritesPlaneMemory : Obligations.OnlyTheCpuWritesPlaneMemory := by
  intro s t h hwrite
  obtain hrun | ⟨hrun, x, rest, hagenda, hfirst, effect⟩ | ⟨-, -, rfl⟩ | ⟨-, -, rfl⟩ := step_cases h
  · rw [step_walk_frame hrun h]
    exact planeByte_congr s _ rfl rfl rfl rfl
  · obtain hrun' | hwrite := hwrite
    · rw [hrun] at hrun'
      cases hrun'
    · obtain ⟨hplane, hreset⟩ := hwrite x rest hagenda hfirst
      obtain ⟨hA, hB, hepoch⟩ := effect.planes hplane hreset
      exact planeByte_congr s t hA hB effect.config hepoch
  · rw [fireTimer0_frame]
    exact planeByte_congr s _ rfl rfl rfl rfl
  · rw [fireScan, beginScan_frame]
    exact planeByte_congr s _ rfl rfl rfl rfl

end Sys2Proof
end

section
/-!
SUPPORT. The invariant of the machine, part by part: what reset gives, what a command, the scan event, Timer0's event and an external
event keep.
-/
namespace Sys2Proof.Machine

/-! ## The parts of the invariant -/

/-- A CLUT in canonical form, of 24-bit entries (10 R40, 30 R113). -/
def ClutWhole (m : Memory Pixel) : Prop := Memory.wf 256 m = true ∧ ∀ e ∈ m, (e.2.extractLsb' 24 8 : Byte) = 0

/-- All of `Inv` but the walker's registers. -/
structure BlockInv (s : State) : Prop where
  planes : ∀ c, Memory.wf s.config.planeBytes (s.plane c) = true
  cluts : ∀ c, ClutWhole (s.display c).clut
  flags : statusFlagsOnly s
  line : lineInFrame s
  vectors : vectorsLegal s
  pending : eventsPending s
  records : recordsWhole s

theorem inv_iff (s : State) : Inv s ↔ BlockInv s ∧ walkerShape s := by
  constructor
  · rintro ⟨⟨hA, hB, clutA, clutB⟩, hclut, flags, line, walker, vectors, pending, records⟩
    exact ⟨⟨fun c => by cases c; exacts [hA, hB], fun c => by cases c; exacts [⟨clutA, hclut .a⟩, ⟨clutB, hclut .b⟩],
      flags, line, vectors, pending, records⟩, walker⟩
  · rintro ⟨⟨planes, cluts, flags, line, vectors, pending, records⟩, walker⟩
    exact ⟨⟨planes .a, planes .b, (cluts .a).1, (cluts .b).1⟩, fun c => (cluts c).2, flags, line, walker, vectors, pending, records⟩

theorem ClutWhole.put {m : Memory Pixel} (h : ClutWhole m) (k : Byte) (value : Operand) :
    ClutWhole (Memory.put m k.toNat (value.setWidth 32)) := by
  refine ⟨Memory.wf_put 256 k.toNat m _ k.isLt h.1, fun e he => ?_⟩
  obtain rfl | he := Memory.mem_put m _ _ e he
  · exact BitVec.eq_of_getLsbD_eq fun i hi => by simp [BitVec.getLsbD_setWidth]
  · exact h.2 e he

/-- Lines that only drop or take one of the block's vectors stay legal (60 R354). -/
theorem vectorsLegal.of_ports {s t : State} (h : vectorsLegal s)
    (hports : ∀ n : IrqLine, t.irq[n] = s.irq[n] ∨ (t.irq[n]).level = false
      ∨ ∃ m : Mode, (t.irq[n]).vector = BitVec.ofNat 8 (vectorBase m + n.number)) : vectorsLegal t := by
  intro n hlevel
  obtain same | low | ⟨m, vector⟩ := hports n
  · rw [same] at hlevel ⊢
    exact h n hlevel
  · rw [low] at hlevel
    cases hlevel
  · rw [vector]
    cases m
    · exact .inl rfl
    · exact .inr rfl

/-! ## Reset -/

theorem blockInv_resetAt (config : Config) (epoch now freeCount : Nat) (agenda : List Scheduled) (h : 0 < config.totalLines) :
    BlockInv (State.resetAt config epoch now freeCount agenda) where
  planes c := by cases c <;> rfl
  cluts c := by cases c <;> exact ⟨rfl, fun e he => by cases he⟩
  flags := ⟨fun i _ => by simp [State.resetAt, DisplayChannel.reset], BitVec.zero_and, BitVec.zero_and⟩
  line := h
  vectors n hn := by
    rw [irq_resetAt] at hn
    cases hn
  pending := ⟨Nat.le_add_right _ _, fun h => by cases h⟩
  records r hr := by cases hr

/-! ## Updates of one part -/

theorem BlockInv.setDisplay {s : State} (h : BlockInv s) (c : Channel) (d : DisplayChannel)
    (hclut : d.clut = (s.display c).clut) (hstatus : d.csrr = (s.display c).csrr) : BlockInv (s.setDisplay c d) where
  planes e := by
    rw [plane_setDisplay]
    exact h.planes e
  cluts e := by
    by_cases he : e = c
    · subst he
      rw [display_setDisplay_same, hclut]
      exact h.cluts e
    · rw [display_setDisplay_other s c e d he]
      exact h.cluts e
  flags := by
    obtain ⟨flagA, flagB, timer⟩ := h.flags
    cases c
    · exact ⟨fun i hi => by rw [setDisplay_a_chA, hstatus]; exact flagA i hi, flagB, timer⟩
    · exact ⟨flagA, by rw [setDisplay_b_chB, hstatus]; exact flagB, timer⟩
  line := h.line
  vectors := h.vectors
  pending := h.pending
  records := h.records

theorem BlockInv.withWalk {s : State} (h : BlockInv s) (w : Walker) : BlockInv { s with walk := w } :=
  { h with cluts := h.cluts, planes := h.planes }

/-- Virtual time can move up to the next due event of the block (60 R356). -/
theorem BlockInv.atTime {s : State} (h : BlockInv s) {now : Nat} (hscan : now ≤ s.scanDue)
    (htimer : s.t0Armed = true → now ≤ s.t0Due) (agenda : List Scheduled) (freeCount : Nat) :
    BlockInv { s with now := now, agenda := agenda, freeCount := freeCount } :=
  { h with planes := h.planes, cluts := h.cluts, pending := ⟨hscan, htimer⟩ }

/-! ## Commands and the end of a walk -/

theorem BlockInv.exec {i : Instr} {s t : State} (h : BlockInv s) (hexec : Machine.exec i s = .next t) : BlockInv t := by
  have effect := exec_cases hexec
  obtain ⟨a, b, r, q, w, l, rfl⟩ : ∃ a b r q w l, t = { s with chA := a, chB := b, regs := r, irq := q, walk := w, log := l } :=
    ⟨_, _, _, _, _, _, exec_frame i s t hexec⟩
  obtain ⟨flagA, flagB, timer⟩ := h.flags
  obtain ⟨-, e⟩ | effect := effect
  · have hA : a = s.chA := (congrArg State.chA e).trans (by rw [raiseInterrupt_frame])
    have hB : b = { s.chB with csrr := s.chB.csrr ||| interruptBit s.chan } := (congrArg State.chB e).trans (raiseInterrupt_chB s)
    have hq : q = (raiseInterrupt s).irq := congrArg State.irq e
    subst hA hB hq
    refine { h with planes := h.planes, cluts := fun c => ?_, flags := ⟨flagA, ?_, timer⟩, vectors := ?_ }
    · cases c
      · exact h.cluts .a
      · exact h.cluts .b
    · exact (interruptBit_inside s.chan s.chB.csrr).trans flagB
    · refine h.vectors.of_ports fun n => ?_
      show (raiseInterrupt s).irq[n] = _ ∨ ((raiseInterrupt s).irq[n]).level = _ ∨ _
      rw [raiseInterrupt_port]
      split
      · exact .inr (.inr ⟨s.walk.mode, rfl⟩)
      · exact .inl rfl
  · have statusA : a.csrr = s.chA.csrr := (effect.status .a).1
    have statusB : b.csrr = s.chB.csrr := (effect.status .b).1
    have hq : q = s.irq := effect.lines
    subst hq
    refine { h with planes := h.planes, cluts := fun c => ?_, flags := ⟨?_, ?_, timer⟩ }
    · by_cases hc : c = s.chan
      · subst hc
        obtain same | ⟨slot, value, put⟩ := effect.own.clut
        · rw [same]
          exact h.cluts _
        · rw [put]
          exact (h.cluts _).put _ value
      · rw [effect.other c hc]
        exact h.cluts c
    · show ∀ i : Fin 8, _ → a.csrr.getLsbD i.val = false
      rw [statusA]
      exact flagA
    · show b.csrr &&& 0xF9 = 0
      rw [statusB]
      exact flagB

theorem BlockInv.endWalk {s : State} (h : BlockInv s) : BlockInv (endWalk s) := by
  obtain ⟨-, -, e⟩ | ⟨-, e⟩ := endWalk_cases s <;> rw [e]
  · exact (h.setDisplay s.chan ((s.display s.chan).setDcp s.config.bits (2 * s.walk.ip)) rfl rfl).withWalk _
  · exact h.withWalk _

theorem BlockInv.finishLine {s : State} (h : BlockInv s) : BlockInv (finishLine s) :=
  { h with
    planes := h.planes
    cluts := h.cluts
    line := Nat.mod_lt _ (Nat.zero_lt_of_lt h.line)
    pending := ⟨Nat.le_add_right _ _, h.pending.2⟩ }

theorem BlockInv.walkA {s : State} (h : BlockInv s) (m : Mode) : BlockInv (walkA s m) := by
  obtain ⟨-, e⟩ | ⟨-, e⟩ := walkA_cases s m <;> rw [e]
  · exact h.withWalk _
  · obtain ⟨-, e⟩ | ⟨-, e⟩ := walkB_cases s m <;> rw [e]
    · exact h.withWalk _
    · exact h.finishLine

/-! ## The scan event -/

theorem BlockInv.setDisplayActive {s : State} (h : BlockInv s) (v : Bool) : BlockInv (setDisplayActive s v) := by
  obtain ⟨flagA, flagB, timer⟩ := h.flags
  refine { h with planes := h.planes, cluts := fun c => ?_, flags := ⟨fun i hi => ?_, flagB, timer⟩ }
  · cases c
    · exact h.cluts .a
    · exact h.cluts .b
  · have other : i.val ≠ s.config.bits.da.val := fun heq => hi (Fin.ext heq)
    rw [getLsbD_setDisplayActive s v i i.isLt, if_neg other]
    exact flagA i hi

theorem BlockInv.renderLine {s : State} (h : BlockInv s) (hline : Config.firstActiveLine ≤ s.line) : BlockInv (renderLine s) := by
  obtain ⟨frameA, -⟩ := renderedChannel_frame s .a
  obtain ⟨frameB, -⟩ := renderedChannel_frame (drawn s 768) .b
  rw [renderLine_eq, frameA, frameB]
  refine { h with planes := h.planes, cluts := fun c => ?_, flags := h.flags, records := fun r hr => ?_ }
  · cases c
    · exact h.cluts .a
    · exact h.cluts .b
  · obtain hr | hr := List.mem_append.mp hr
    · exact h.records r hr
    · rw [List.mem_singleton] at hr
      subst hr
      have lengthA := length_renderPixels s .a
      exact ⟨hline, h.line, lengthA, length_renderPixels _ .b, length_compose _ _ _ lengthA, rfl⟩

theorem BlockInv.beginScan {s : State} (h : BlockInv s) : BlockInv (beginScan s) := by
  obtain hidle | ⟨hp, hline⟩ | ⟨hp, hline⟩ := line_cases s
  · rw [beginScan_idle hidle]
    exact h.finishLine
  · rw [beginScan_lineZero hp hline]
    exact (h.setDisplayActive false).walkA .ica
  · rw [beginScan_active hp hline]
    exact ((h.setDisplayActive true).renderLine hline).walkA .dca

/-! ## Timer0 and the peripheral page -/

theorem clear_of_and {b mask : Byte} (h : b &&& mask = 0) (keep : Byte) : (b &&& keep) &&& mask = 0 := by
  calc (b &&& keep) &&& mask = (b &&& mask) &&& keep := by rw [BitVec.and_assoc, BitVec.and_comm keep, ← BitVec.and_assoc]
    _ = 0 := by rw [h]; exact BitVec.zero_and

theorem overflow_inside : ∀ b : Byte, (b ||| 0x80) &&& 0x7F = b &&& 0x7F := by decide

theorem BlockInv.timer0Event {s : State} (h : BlockInv s) : BlockInv (timer0Event s) := by
  obtain ⟨flagA, flagB, timer⟩ := h.flags
  have ports := timer0Event_port s
  rw [timer0Event_eq]
  refine { h with
    planes := h.planes, cluts := h.cluts, flags := ⟨flagA, flagB, (overflow_inside _).trans timer⟩
    vectors := h.vectors.of_ports fun n => ?_, pending := ⟨h.pending.1, fun _ => Nat.le_add_right _ _⟩ }
  show (Machine.timer0Event s).irq[n] = _ ∨ ((Machine.timer0Event s).irq[n]).level = _ ∨ _
  rw [ports]
  split
  · exact .inr (.inr ⟨.ica, rfl⟩)
  · exact .inl rfl

/-- A store of registers other than TSR keeps everything. -/
theorem BlockInv.withPeriph {s : State} (h : BlockInv s) {p : Peripherals} (hp : p.tsr = s.periph.tsr) :
    BlockInv { s with periph := p } := by
  obtain ⟨flagA, flagB, timer⟩ := h.flags
  exact { h with planes := h.planes, cluts := h.cluts, flags := ⟨flagA, flagB, by rw [hp]; exact timer⟩ }

theorem BlockInv.writeTimerStatus {s : State} (h : BlockInv s) (ones : Byte) : BlockInv (writeTimerStatus s ones) := by
  obtain ⟨flagA, flagB, timer⟩ := h.flags
  obtain ⟨e, ports⟩ := writeTimerStatus_effect s ones
  rw [e]
  refine { h with planes := h.planes, cluts := h.cluts, flags := ⟨flagA, flagB, ?_⟩, vectors := h.vectors.of_ports fun n => ?_ }
  · exact clear_of_and timer (~~~ones)
  · show (Machine.writeTimerStatus s ones).irq[n] = _ ∨ ((Machine.writeTimerStatus s ones).irq[n]).level = _ ∨ _
    rw [ports]
    split
    · exact .inr (.inl rfl)
    · exact .inl rfl

theorem BlockInv.writeLane {s : State} (h : BlockInv s) (selected : Bool) (r : Option ByteReg) (v : Byte) :
    BlockInv (writeLane s selected r v) := by
  obtain ⟨-, e⟩ | ⟨rfl, rfl, -⟩ | ⟨-, -, e⟩ | ⟨q, -, -, -, htsr, e⟩ := writeLane_cases s selected r v
  · rwa [e]
  · rw [writeLane_uartThr]
    have stored := h.withPeriph (p := { s.periph with uartThr := v }) rfl
    exact { stored with planes := stored.planes, cluts := stored.cluts }
  · rw [e]
    exact h.writeTimerStatus v
  · rw [e]
    exact h.withPeriph ((readByte_storeByte s.periph q .tsr v).trans (if_neg (Ne.symm htsr)))

theorem BlockInv.periphWrite {s : State} (h : BlockInv s) (w : Nat) (m : Lanes) (d : Half) : BlockInv (periphWrite s w m d) := by
  cases hword : periphWord s.config w with
  | none => rwa [periphWrite_empty hword]
  | some p =>
    cases p with
    | bytes high low =>
      rw [periphWrite_bytes hword]
      exact (h.writeLane _ _ _).writeLane _ _ _
    | word r =>
      by_cases hr : r = .t0
      · subst hr
        rw [periphWrite_word hword]
        have stored := h.withPeriph (p := { s.periph with t0 := combine s.periph.t0 d m }) rfl
        exact { stored with
          planes := stored.planes, cluts := stored.cluts, pending := ⟨h.pending.1, fun _ => Nat.le_add_right _ _⟩ }
      · rw [periphWrite_wordStorage hword hr]
        exact h.withPeriph (readByte_storeWord s.periph r .tsr _)

/-! ## External events -/

theorem BlockInv.acknowledgeInterrupts {s : State} (h : BlockInv s) : BlockInv (acknowledgeInterrupts s) := by
  obtain ⟨flagA, flagB, timer⟩ := h.flags
  have ports := acknowledgeInterrupts_port s
  rw [acknowledgeInterrupts_frame]
  refine { h with planes := h.planes, cluts := fun c => ?_, flags := ⟨flagA, ?_, timer⟩, vectors := h.vectors.of_ports fun n => ?_ }
  · cases c
    · exact h.cluts .a
    · exact h.cluts .b
  · exact clear_of_and flagB (~~~interruptBits)
  · show (Machine.acknowledgeInterrupts s).irq[n] = _ ∨ ((Machine.acknowledgeInterrupts s).irq[n]).level = _ ∨ _
    rw [ports]
    split
    · exact .inr (.inl rfl)
    · exact .inl rfl

theorem BlockInv.planeWrite {s : State} (h : BlockInv s) (c : Channel) (w : Nat) (m : Lanes) (d : Half) :
    BlockInv (planeWrite s c w m d) := by
  obtain ⟨e, keeps⟩ := planeWrite_spec s c w m d
  have planes (x : Channel) := keeps x (h.planes x)
  rw [e] at planes ⊢
  exact { h with
    planes := planes, cluts := fun x => by rw [display_setPlane]; exact h.cluts x
    flags := by cases c <;> exact h.flags }

theorem BlockInv.external {s t : State} {e : External} (h : BlockInv s) (effect : ExternalEffect s e t) : BlockInv t := by
  cases effect with
  | read | dropped => exact { h with planes := h.planes, cluts := h.cluts }
  | acknowledge v =>
    have returned : BlockInv (returnHalf s v) := { h with planes := h.planes, cluts := h.cluts }
    exact returned.acknowledgeInterrupts
  | writePlane _ c w m d => exact h.planeWrite c w m d
  | writeDisplay c r m d => cases r <;> exact h.setDisplay c _ rfl rfl
  | writePeriph w m d => exact h.periphWrite w m d
  | reset => exact blockInv_resetAt _ _ _ _ _ (Nat.zero_lt_of_lt h.line)

/-! ## The walker's registers (10 R48, 47 R321, 43 R213) -/

theorem walkerShape_idle {s : State} (h : s.walk = Walker.idle) : walkerShape s := by
  refine ⟨fun _ => h, fun hrun => ?_⟩
  rw [h] at hrun
  cases hrun

theorem walkerShape_startWalk {s : State} (c : Channel) {m : Mode}
    (h : (m = .ica ∧ s.line = 0) ∨ (m = .dca ∧ Config.firstActiveLine ≤ s.line)) : walkerShape (startWalk s c m) := by
  refine ⟨fun hrun => Bool.noConfusion hrun, fun _ => ⟨rfl, rfl, fun hica => ?_, fun hdca => ?_⟩⟩
  · obtain ⟨-, hline⟩ | ⟨rfl, -⟩ := h
    · exact hline
    · cases hica
  · obtain ⟨rfl, -⟩ | ⟨-, hline⟩ := h
    · cases hdca
    · exact ⟨hline, (InDca.of_startWalk s c).belowCap, dcaCap_cases _ _⟩

theorem walkerShape_walkA {s : State} {m : Mode} (hidle : s.walk = Walker.idle)
    (h : (m = .ica ∧ s.line = 0) ∨ (m = .dca ∧ Config.firstActiveLine ≤ s.line)) : walkerShape (walkA s m) := by
  obtain ⟨-, e⟩ | ⟨-, e⟩ := walkA_cases s m <;> rw [e]
  · exact walkerShape_startWalk .a h
  · obtain ⟨-, e⟩ | ⟨-, e⟩ := walkB_cases s m <;> rw [e]
    · exact walkerShape_startWalk .b h
    · exact walkerShape_idle hidle

theorem walkerShape_beginScan {s : State} (hidle : s.walk = Walker.idle) : walkerShape (beginScan s) := by
  obtain h | ⟨hp, hline⟩ | ⟨hp, hline⟩ := line_cases s
  · rw [beginScan_idle h]
    exact walkerShape_idle hidle
  · rw [beginScan_lineZero hp hline]
    exact walkerShape_walkA hidle (.inl ⟨rfl, hline⟩)
  · rw [beginScan_active hp hline]
    exact walkerShape_walkA ((renderLine_walk _).trans hidle) (.inr ⟨rfl, (renderLine_line _).symm ▸ hline⟩)

/-- DCP is marked as reloaded by a command that halts only (R224). -/
theorem exec_dcpReloaded {i : Instr} {s t : State} (h : exec i s = .next t) (hhalts : i.halts = false) :
    t.walk.dcpReloaded = s.walk.dcpReloaded := by
  cases i
  case stop | reloadDcpStop | reloadVsrStop => cases hhalts
  all_goals
    cases h
    simp

/-- The phase a walk belongs to is its mode's. -/
theorem walkerShape.phase {s : State} (h : walkerShape s) (hrun : s.walk.running = true) :
    (s.walk.mode = .ica ∧ s.line = 0) ∨ (s.walk.mode = .dca ∧ Config.firstActiveLine ≤ s.line) := by
  obtain ⟨-, -, ica, dca⟩ := h.2 hrun
  cases hm : s.walk.mode
  · exact .inl ⟨rfl, ica hm⟩
  · exact .inr ⟨rfl, (dca hm).1⟩

/-- A walk that a command leaves going on is in its phase and below its cap. -/
theorem walkerShape.command {s u : State} (h : walkerShape s) (hrun : s.walk.running = true)
    (hu : exec (nextCommand s) (advance s) = .next u) (hover : walkOver u = false) : walkerShape u := by
  obtain ⟨hstop, hreload, ica, dca⟩ := h.2 hrun
  obtain ⟨ustop, ucap⟩ := (walkOver_eq_false_iff u).mp hover
  have hwalk := command_walk hu
  obtain ⟨hline, -⟩ := command_line hu
  have hhalts : (nextCommand s).halts = false := by
    rw [hwalk, hstop] at ustop
    exact ustop
  have ureload : u.walk.dcpReloaded = false := (exec_dcpReloaded hu hhalts).trans hreload
  have hmode : u.walk.mode = s.walk.mode := by rw [hwalk]
  have hcount : u.walk.count = s.walk.count + 1 := by rw [hwalk]
  have hmax : u.walk.max = s.walk.max := by rw [hwalk]
  have urun : u.walk.running = true := by rw [hwalk]; exact hrun
  refine ⟨fun hidle => absurd (urun.symm.trans hidle) Bool.noConfusion, fun _ => ⟨ustop, ureload, fun hm => ?_, fun hm => ?_⟩⟩
  · rw [hline]
    exact ica (hmode ▸ hm)
  · obtain ⟨active, below, cap⟩ := dca (hmode ▸ hm)
    obtain hica | hne := ucap
    · rw [hm] at hica
      cases hica
    · rw [hline, hmax]
      exact ⟨active, by omega, cap⟩

/-- What follows a command, for each of the three ways a walk's step can end. -/
theorem walkerShape.step {s t : State} (h : walkerShape s) (hrun : s.walk.running = true) (hstep : step s = .next t) :
    walkerShape t := by
  obtain ⟨u, hu, hcases⟩ := step_walk_cases hrun
  obtain ⟨hover, e⟩ | ⟨-, e⟩ | ⟨-, -, e⟩ := hcases <;> obtain rfl := Host.Outcome.next.inj (e.symm.trans hstep)
  · exact h.command hrun hu hover
  · exact walkerShape_idle (endWalk_walk u)
  · refine walkerShape_startWalk .b ?_
    rw [endWalk_frame, (command_line hu).1]
    exact h.phase hrun

/-- An external event leaves the walker's registers alone, or resets them. -/
theorem ExternalEffect.walk {s t : State} {e : External} (effect : ExternalEffect s e t) (h : s.walk = Walker.idle) :
    t.walk = Walker.idle := by
  cases effect with
  | read | dropped | writeDisplay => exact h
  | acknowledge v =>
    rw [acknowledgeInterrupts_frame]
    exact h
  | writePlane _ c w m d =>
    rw [(planeWrite_spec s c w m d).1]
    cases c <;> exact h
  | writePeriph w m d =>
    rw [periphWrite_frame]
    exact h
  | reset => rfl

/-! ## Every step -/

theorem BlockInv.step_walk {s t : State} (h : BlockInv s) (hrun : s.walk.running = true) (hstep : step s = .next t) :
    BlockInv t := by
  obtain ⟨u, hu, hcases⟩ := step_walk_cases hrun
  have fetched : BlockInv (advance s) := { h with planes := h.planes, cluts := h.cluts }
  have command := fetched.exec hu
  obtain ⟨-, e⟩ | ⟨-, e⟩ | ⟨-, -, e⟩ := hcases <;> obtain rfl := Host.Outcome.next.inj (e.symm.trans hstep)
  · exact command
  · exact command.endWalk.finishLine
  · exact command.endWalk.withWalk _

theorem timer0First_iff (s : State) :
    timer0First s = true ↔ s.t0Armed = true ∧ (s.t0Due < s.scanDue ∨ s.t0Due = s.scanDue ∧ Config.freeTie s.freeCount = true) := by
  simp [timer0First]

theorem BlockInv.fireTimer0 {s : State} (h : BlockInv s) (hfirst : timer0First s = true) : BlockInv (fireTimer0 s) := by
  obtain ⟨harmed, hdue⟩ := (timer0First_iff s).mp hfirst
  rw [fireTimer0_of_due (h.pending.2 harmed)]
  exact (h.atTime (by omega) (fun _ => le_refl _) s.agenda (s.freeCount + 1)).timer0Event

theorem BlockInv.fireScan {s : State} (h : BlockInv s) (hfirst : timer0First s = false) : BlockInv (fireScan s) := by
  rw [fireScan_of_due h.pending.1]
  refine (h.atTime (le_refl _) (fun harmed => ?_) s.agenda (s.freeCount + 1)).beginScan
  by_contra hlt
  have : timer0First s = true := (timer0First_iff s).mpr ⟨harmed, .inl (by omega)⟩
  rw [hfirst] at this
  cases this

end Sys2Proof.Machine

namespace Sys2Proof

open Machine

/-! ## The obligations -/

/-- Settles O56: the reset values of the default configuration. -/
theorem invariantHoldsAtReset : Obligations.InvariantHoldsAtReset :=
  (inv_iff _).mpr ⟨blockInv_resetAt defaultConfig 0 0 0 [] (by decide), walkerShape_idle rfl⟩

/-- Settles O57, agent by agent, the walker's registers apart from the rest. -/
theorem everyStepKeepsTheInvariant : Obligations.EveryStepKeepsTheInvariant := by
  intro s t hinv hstep
  obtain ⟨block, walker⟩ := (inv_iff s).mp hinv
  refine (inv_iff t).mpr ?_
  obtain hrun | ⟨hrun, x, rest, -, hfirst, effect⟩ | ⟨hrun, hfirst, rfl⟩ | ⟨hrun, hfirst, rfl⟩ := step_cases hstep
  · exact ⟨block.step_walk hrun hstep, walker.step hrun hstep⟩
  · obtain ⟨hscan, htimer⟩ := (externalFirst_iff s x).mp hfirst
    have moved := block.atTime (le_of_lt hscan) (fun harmed => le_of_lt (htimer harmed)) rest s.freeCount
    exact ⟨moved.external effect, walkerShape_idle (effect.walk (walker.1 hrun))⟩
  · refine ⟨block.fireTimer0 hfirst, walkerShape_idle ?_⟩
    rw [fireTimer0_frame]
    exact walker.1 hrun
  · exact ⟨block.fireScan hfirst, walkerShape_beginScan (walker.1 hrun)⟩

end Sys2Proof
end

section
/-!
SUPPORT. The diagnostic log is not state (60 R343): every operation of the block takes states that differ in their logs to states that
differ in their logs, and so do a step and a run.
-/
namespace Sys2Proof.Machine

/-! ## States that differ in their logs -/

/-- `t` is `s` with some log in place of its own. -/
def LogOnly (s t : State) : Prop := ∃ l, t = { s with log := l }

theorem logOnly_iff (s t : State) : LogOnly s t ↔ withoutLog s = withoutLog t := by
  constructor
  · rintro ⟨l, rfl⟩
    rfl
  · intro h
    exact ⟨t.log, congrArg (fun u : State => { u with log := t.log }) h.symm⟩

theorem LogOnly.refl (s : State) : LogOnly s s := ⟨s.log, rfl⟩

/-- A test that does not read the log takes the same branch in both states. -/
theorem LogOnly.ite {p : Prop} [Decidable p] {a b c d : State} (h : LogOnly a c) (k : LogOnly b d) :
    LogOnly (if p then a else b) (if p then c else d) := by
  split
  · exact h
  · exact k

/-! ## Lines -/

theorem LogOnly.assertSelected {s t : State} (h : LogOnly s t) (sel : BitVec 3) (base : Nat) :
    LogOnly (assertSelected s sel base) (assertSelected t sel base) := by
  obtain ⟨l, rfl⟩ := h
  rw [Machine.assertSelected, Machine.assertSelected]
  cases selectLine sel <;> exact ⟨l, rfl⟩

theorem LogOnly.deassertSelected {s t : State} (h : LogOnly s t) (sel : BitVec 3) :
    LogOnly (deassertSelected s sel) (deassertSelected t sel) := by
  obtain ⟨l, rfl⟩ := h
  rw [Machine.deassertSelected, Machine.deassertSelected]
  cases selectLine sel <;> exact ⟨l, rfl⟩

/-! ## Commands -/

theorem LogOnly.writeOwned {s t : State} (h : LogOnly s t) (o : Channel) (f : DisplayRegs → DisplayRegs) :
    LogOnly (writeOwned s o f) (writeOwned t o f) := by
  obtain ⟨l, rfl⟩ := h
  exact .ite ⟨l, rfl⟩ ⟨l, rfl⟩

theorem LogOnly.raiseInterrupt {s t : State} (h : LogOnly s t) : LogOnly (raiseInterrupt s) (raiseInterrupt t) := by
  obtain ⟨l, rfl⟩ := h
  have marked : LogOnly (setInterruptBit s s.chan) (setInterruptBit { s with log := l } s.chan) := ⟨l, rfl⟩
  rw [raiseInterrupt_eq, raiseInterrupt_eq]
  exact marked.assertSelected _ _

theorem LogOnly.exec {s t a b : State} (h : LogOnly s t) {i : Instr} (ha : exec i s = .next a) (hb : exec i t = .next b) :
    LogOnly a b := by
  have owned := fun o f => h.writeOwned o f
  have interrupt := h.raiseInterrupt
  obtain ⟨l, rfl⟩ := h
  cases i
  case interrupt =>
    cases ha
    cases hb
    exact interrupt
  case reloadDcpInert | regsetUnassigned =>
    cases ha
    cases hb
    exact ⟨l ++ [_], rfl⟩
  case setIcm | setTcr | setPor | setTca | setTcb | setMca | setMcb | setDyuva | setDyuvb | setCurpos | setCurcnt | setCurpat
      | setBackdrop | setMha | setMhb | setWfa | setWfb =>
    cases ha
    cases hb
    exact owned _ _
  -- Every other command writes its own channel's registers and the walker's.
  all_goals
    cases ha
    cases hb
    exact ⟨l, rfl⟩

/-! ## The walk and the scan event -/

theorem LogOnly.endWalk {s t : State} (h : LogOnly s t) : LogOnly (endWalk s) (endWalk t) := by
  obtain ⟨l, rfl⟩ := h
  have written : LogOnly (writeBack s) (writeBack { s with log := l }) := .ite ⟨l, rfl⟩ ⟨l, rfl⟩
  obtain ⟨k, e⟩ := written
  exact ⟨k, by rw [Machine.endWalk, e]; rfl⟩

theorem LogOnly.finishLine {s t : State} (h : LogOnly s t) : LogOnly (finishLine s) (finishLine t) := by
  obtain ⟨l, rfl⟩ := h
  exact ⟨l, rfl⟩

theorem LogOnly.walkB {s t : State} (h : LogOnly s t) (m : Mode) : LogOnly (walkB s m) (walkB t m) := by
  obtain ⟨l, rfl⟩ := h
  exact .ite ⟨l, by cases m <;> rfl⟩ ⟨l, rfl⟩

theorem LogOnly.walkA {s t : State} (h : LogOnly s t) (m : Mode) : LogOnly (walkA s m) (walkA t m) := by
  have next := h.walkB m
  obtain ⟨l, rfl⟩ := h
  exact .ite ⟨l, by cases m <;> rfl⟩ next

theorem LogOnly.afterWalk {s t : State} (h : LogOnly s t) (c : Channel) (m : Mode) :
    LogOnly (afterWalk s c m) (afterWalk t c m) := by
  cases c
  · exact h.walkB m
  · exact h.finishLine

theorem LogOnly.afterCommand {s t : State} (h : LogOnly s t) : LogOnly (afterCommand s) (afterCommand t) := by
  have ended := h.endWalk
  obtain ⟨l, rfl⟩ := h
  exact .ite (ended.afterWalk _ _) ⟨l, rfl⟩

/-- The pixels of a line and the registers it leaves do not depend on the log. -/
theorem sameLine_withLog (s : State) (l : List LogEvent) (c : Channel) : SameLine s { s with log := l } c := by
  cases c <;> exact ⟨rfl, rfl, rfl, rfl, rfl, rfl, rfl⟩

theorem renderPixels_withLog (s : State) (l : List LogEvent) (c : Channel) :
    renderPixels { s with log := l } c = renderPixels s c :=
  congrArg Prod.fst (sameLine_withLog s l c).decodeLine_eq

theorem renderedChannel_withLog (s : State) (l : List LogEvent) (c : Channel) :
    renderedChannel { s with log := l } c = renderedChannel s c :=
  (sameLine_withLog s l c).renderedChannel_eq (by cases c <;> rfl) rfl

theorem LogOnly.renderLine {s t : State} (h : LogOnly s t) : LogOnly (renderLine s) (renderLine t) := by
  obtain ⟨l, rfl⟩ := h
  have drawnLog : drawn { s with log := l } 768 = { drawn s 768 with log := l } := rfl
  refine ⟨(Machine.renderLine { s with log := l }).log, ?_⟩
  rw [renderLine_eq s, renderLine_eq { s with log := l }, drawnLog]
  simp only [renderPixels_withLog, renderedChannel_withLog]

theorem LogOnly.beginScan {s t : State} (h : LogOnly s t) : LogOnly (beginScan s) (beginScan t) := by
  have finished := h.finishLine
  obtain ⟨l, rfl⟩ := h
  have active (v : Bool) : LogOnly (setDisplayActive s v) (setDisplayActive { s with log := l } v) := ⟨l, rfl⟩
  exact .ite (.ite ((active false).walkA .ica) (.ite ((active true).renderLine.walkA .dca) finished)) finished

/-! ## Timer0 and the peripheral page -/

theorem LogOnly.armTimer0 {s t : State} (h : LogOnly s t) : LogOnly (armTimer0 s) (armTimer0 t) := by
  obtain ⟨l, rfl⟩ := h
  exact ⟨l, rfl⟩

theorem LogOnly.timer0Event {s t : State} (h : LogOnly s t) : LogOnly (timer0Event s) (timer0Event t) := by
  obtain ⟨l, rfl⟩ := h
  let p := { s.periph with t0 := s.periph.reload }.setOverflow
  have reloaded : LogOnly { s with periph := p } { s with periph := p, log := l } := ⟨l, rfl⟩
  exact (reloaded.assertSelected _ _).armTimer0

theorem LogOnly.writeTimerStatus {s t : State} (h : LogOnly s t) (ones : Byte) :
    LogOnly (writeTimerStatus s ones) (writeTimerStatus t ones) := by
  obtain ⟨l, rfl⟩ := h
  let p := s.periph.clearStatus ones
  have cleared : LogOnly { s with periph := p } { s with periph := p, log := l } := ⟨l, rfl⟩
  exact .ite (cleared.deassertSelected _) cleared

theorem LogOnly.writeByteReg {s t : State} (h : LogOnly s t) (r : ByteReg) (v : Byte) :
    LogOnly (writeByteReg s r v) (writeByteReg t r v) := by
  have status := h.writeTimerStatus v
  obtain ⟨l, rfl⟩ := h
  cases r with
  | tsr => exact status
  | uartThr => exact .ite ⟨l, rfl⟩ ⟨l, rfl⟩
  | _ => exact ⟨l, rfl⟩

theorem LogOnly.writeWordReg {s t : State} (h : LogOnly s t) (r : WordReg) (m : Lanes) (d : Half) :
    LogOnly (writeWordReg s r m d) (writeWordReg t r m d) := by
  obtain ⟨l, rfl⟩ := h
  cases r <;> exact ⟨l, rfl⟩

theorem LogOnly.writeLane {s t : State} (h : LogOnly s t) (selected : Bool) (r : Option ByteReg) (v : Byte) :
    LogOnly (writeLane s selected r v) (writeLane t selected r v) := by
  cases r with
  | none => exact h
  | some q => exact .ite (h.writeByteReg q v) h

theorem LogOnly.config {s t : State} (h : LogOnly s t) : t.config = s.config := by
  obtain ⟨l, rfl⟩ := h
  rfl

theorem LogOnly.periphWrite {s t : State} (h : LogOnly s t) (w : Nat) (m : Lanes) (d : Half) :
    LogOnly (periphWrite s w m d) (periphWrite t w m d) := by
  rw [Machine.periphWrite, Machine.periphWrite, h.config]
  split
  · exact (h.writeLane _ _ _).writeLane _ _ _
  · exact h.writeWordReg _ m d
  · exact h

/-! ## External events -/

/-- Two outcomes that differ in the log of the next state at most. -/
inductive SameOutcome : Host.Outcome State Fault Refusal → Host.Outcome State Fault Refusal → Prop where
  | next {s t : State} (h : LogOnly s t) : SameOutcome (.next s) (.next t)
  | refused (r : Refusal) : SameOutcome (.refused r) (.refused r)

theorem SameOutcome.outcomeWithoutLog_eq {r q : Host.Outcome State Fault Refusal} (h : SameOutcome r q) :
    outcomeWithoutLog r = outcomeWithoutLog q := by
  cases h with
  | next h => exact congrArg Host.Outcome.next ((logOnly_iff _ _).mp h)
  | refused => rfl

theorem SameOutcome.ite {p : Prop} [Decidable p] {a b c d : Host.Outcome State Fault Refusal} (h : SameOutcome a c)
    (k : SameOutcome b d) : SameOutcome (if p then a else b) (if p then c else d) := by
  split
  · exact h
  · exact k

theorem LogOnly.readPlane {s t : State} (h : LogOnly s t) (c : Channel) (w : Nat) :
    SameOutcome (readPlane s c w) (readPlane t c w) := by
  obtain ⟨l, rfl⟩ := h
  exact .ite (.next ⟨l, by cases c <;> rfl⟩) (.refused _)

theorem LogOnly.storeInPlane {s t : State} (h : LogOnly s t) (c : Channel) (a : Nat) (b : Byte) :
    LogOnly (storeInPlane s c a b) (storeInPlane t c a b) := by
  obtain ⟨l, rfl⟩ := h
  exact .ite ⟨l, by cases c <;> rfl⟩ ⟨l, rfl⟩

theorem LogOnly.planeWrite {s t : State} (h : LogOnly s t) (c : Channel) (w : Nat) (m : Lanes) (d : Half) :
    LogOnly (planeWrite s c w m d) (planeWrite t c w m d) := by
  have high := LogOnly.ite (p := m.hasHigh = true) (h.storeInPlane c (2 * w) (highByte d)) h
  exact .ite (high.storeInPlane _ _ _) high

theorem LogOnly.writePlane {s t : State} (h : LogOnly s t) (c : Channel) (w : Nat) (m : Lanes) (d : Half) :
    SameOutcome (writePlane s c w m d) (writePlane t c w m d) := by
  have written := h.planeWrite c w m d
  obtain ⟨l, rfl⟩ := h
  exact .ite (.next written) (.refused _)

theorem LogOnly.acknowledgeInterrupts {s t : State} (h : LogOnly s t) :
    LogOnly (acknowledgeInterrupts s) (acknowledgeInterrupts t) := by
  obtain ⟨l, rfl⟩ := h
  have cleared : LogOnly (clearInterruptBits s) (clearInterruptBits { s with log := l }) := ⟨l, rfl⟩
  exact (cleared.deassertSelected _).deassertSelected _

theorem LogOnly.mcd212Read {s t : State} (h : LogOnly s t) (o : BitVec 4) (m : Lanes) :
    LogOnly (mcd212Read s o m) (mcd212Read t o m) := by
  obtain ⟨l, rfl⟩ := h
  have value : mcd212Value { s with log := l } o = mcd212Value s o := by
    rw [mcd212Value, mcd212Value]
    cases slotChannel o <;> rfl
  have returned : LogOnly (returnHalf s (mcd212Value s o)) (returnHalf { s with log := l } (mcd212Value s o)) := ⟨l, rfl⟩
  rw [Machine.mcd212Read, Machine.mcd212Read, value]
  dsimp only
  split
  · exact ⟨l ++ [_], rfl⟩
  · exact .ite returned.acknowledgeInterrupts returned
  · exact returned

theorem LogOnly.mcd212Write {s t : State} (h : LogOnly s t) (o : BitVec 4) (m : Lanes) (d : Half) :
    LogOnly (mcd212Write s o m d) (mcd212Write t o m d) := by
  obtain ⟨l, rfl⟩ := h
  rw [Machine.mcd212Write, Machine.mcd212Write]
  dsimp only
  split
  · exact ⟨l, rfl⟩
  · exact ⟨l, by cases slotChannel o <;> rfl⟩

theorem LogOnly.periphRead {s t : State} (h : LogOnly s t) (w : Nat) (m : Lanes) :
    LogOnly (periphRead s w m) (periphRead t w m) := by
  obtain ⟨l, rfl⟩ := h
  have returned : LogOnly (returnHalf s (periphValue s w)) (returnHalf { s with log := l } (periphValue s w)) := ⟨l, rfl⟩
  have value : periphValue { s with log := l } w = periphValue s w := rfl
  rw [Machine.periphRead, Machine.periphRead, value]
  dsimp only
  split
  · exact returned
  · exact ⟨l ++ [_], rfl⟩

theorem LogOnly.readRegion {s t : State} (h : LogOnly s t) (r : BusRegion) (w : Nat) (m : Lanes) :
    SameOutcome (readRegion s r w m) (readRegion t r w m) := by
  cases r with
  | plane c => exact h.readPlane c w
  | mcd212 => exact .next (h.mcd212Read _ m)
  | periph => exact .next (h.periphRead w m)

theorem LogOnly.writeRegion {s t : State} (h : LogOnly s t) (r : BusRegion) (w : Nat) (m : Lanes) (d : Half) :
    SameOutcome (writeRegion s r w m d) (writeRegion t r w m d) := by
  cases r with
  | plane c => exact h.writePlane c w m d
  | mcd212 => exact .next (h.mcd212Write _ m d)
  | periph => exact .next (h.periphWrite w m d)

theorem LogOnly.busRead {s t : State} (h : LogOnly s t) (address : Nat) (m : Lanes) :
    SameOutcome (busRead s address m) (busRead t address m) := by
  rw [Machine.busRead, Machine.busRead, h.config]
  split
  · exact h.readRegion _ _ m
  · exact .refused _

theorem LogOnly.busWrite {s t : State} (h : LogOnly s t) (address : Nat) (m : Lanes) (d : Half) :
    SameOutcome (busWrite s address m d) (busWrite t address m d) := by
  rw [Machine.busWrite, Machine.busWrite, h.config]
  split
  · exact h.writeRegion _ _ m d
  · exact .refused _

theorem LogOnly.machineReset {s t : State} (h : LogOnly s t) : LogOnly (machineReset s) (machineReset t) := by
  obtain ⟨l, rfl⟩ := h
  exact .refl _

theorem LogOnly.runExternal {s t : State} (h : LogOnly s t) (e : External) : SameOutcome (runExternal s e) (runExternal t e) := by
  cases e with
  | planeRead c w => exact h.readPlane c w
  | planeWrite c w m d => exact h.writePlane c w m d
  | busRead a m => exact h.busRead a m
  | busWrite a m d => exact h.busWrite a m d
  | mcd212Read o m => exact .next (h.mcd212Read o m)
  | mcd212Write o m d => exact .next (h.mcd212Write o m d)
  | periphRead w m => exact .next (h.periphRead w m)
  | periphWrite w m d => exact .next (h.periphWrite w m d)
  | machineReset => exact .next h.machineReset

/-! ## Steps and runs -/

theorem LogOnly.runEvent {s t : State} (h : LogOnly s t) : LogOnly (runEvent s) (runEvent t) := by
  obtain ⟨l, rfl⟩ := h
  have moved (now : Nat) : LogOnly { drawn s 1 with now := now } { drawn { s with log := l } 1 with now := now } := ⟨l, rfl⟩
  exact .ite (moved _).timer0Event (moved _).beginScan

theorem LogOnly.agentStep {s t : State} (h : LogOnly s t) : SameOutcome (agentStep s) (agentStep t) := by
  have event := h.runEvent
  obtain ⟨l, rfl⟩ := h
  rw [Machine.agentStep, Machine.agentStep]
  dsimp only
  split
  · next x rest _ =>
    have moved : LogOnly { s with now := max s.now x.due, agenda := rest }
        { s with now := max s.now x.due, agenda := rest, log := l } := ⟨l, rfl⟩
    exact .ite (moved.runExternal x.event) (.next event)
  · exact .next event

theorem LogOnly.commandStep {s t : State} (h : LogOnly s t) : SameOutcome (commandStep s) (commandStep t) := by
  have fetched : LogOnly (advance s) (advance t) ∧ nextCommand t = nextCommand s := by
    obtain ⟨l, rfl⟩ := h
    exact ⟨⟨l, rfl⟩, rfl⟩
  obtain ⟨advanced, same⟩ := fetched
  obtain ⟨a, ha⟩ := exec_hasNext (nextCommand s) (advance s)
  obtain ⟨b, hb⟩ := exec_hasNext (nextCommand s) (advance t)
  rw [Machine.commandStep, Machine.commandStep, same, ha, hb]
  exact .next (advanced.exec ha hb).afterCommand

theorem LogOnly.step {s t : State} (h : LogOnly s t) : SameOutcome (step s) (step t) := by
  have walking := h.commandStep
  have idle := h.agentStep
  obtain ⟨l, rfl⟩ := h
  exact .ite walking idle

theorem run_succ_refused {s : State} {r : Refusal} (k : Nat) (h : step s = .refused r) :
    Sys2Proof.core.run (k + 1) s = .refused r := by
  have core_step : Sys2Proof.core.step s = .refused r := h
  have unfolded := Host.Core.run.eq_def Sys2Proof.core (k + 1) s
  simp only [core_step] at unfolded
  exact unfolded

theorem LogOnly.run (k : Nat) {s t : State} (h : LogOnly s t) :
    SameOutcome (Sys2Proof.core.run k s) (Sys2Proof.core.run k t) := by
  induction k generalizing s t with
  | zero => exact .next h
  | succ k ih =>
    have steps := h.step
    generalize hs : Machine.step s = a at steps
    generalize ht : Machine.step t = b at steps
    cases steps with
    | next hnext =>
      rw [run_succ k hs, run_succ k ht]
      exact ih hnext
    | refused r =>
      rw [run_succ_refused k hs, run_succ_refused k ht]
      exact .refused r

end Sys2Proof.Machine

namespace Sys2Proof

open Machine

/-! ## The obligations -/

/-- Settles O60, by induction on the number of steps. -/
theorem runsThatDifferInTheirLogsAreTheSame : Obligations.RunsThatDifferInTheirLogsAreTheSame := fun k s t h =>
  (LogOnly.run k ((logOnly_iff s t).mpr h)).outcomeWithoutLog_eq

end Sys2Proof
end
